-- ==== Sys2Proof/Word.lean ====
section
/-! DEFINITION. The word types of the machine, by their widths in the spec. -/

namespace Sys2Proof

/-- A byte: the width of the data bus, of WREG and of every file register (00_scope R2, 10_state R20). -/
abbrev Byte := BitVec 8

/-- A 16-bit instruction word (30_encoding R100). -/
abbrev Word := BitVec 16

/-- A 21-bit byte address in program memory: PC, TBLPTR, a return address (10_state R37, R40, R43). -/
abbrev ProgAddr := BitVec 21

/-- A 12-bit address in data memory (20_memory R70). -/
abbrev DataAddr := BitVec 12

end Sys2Proof
end

