-- ==== Sys2Proof/Config.lean ====
section
/-! DEFINITION. What an implementation fixes (the parameters of 00_scope R6, as plain data) and the free values:
constants without a body, of which nothing can be proved. The parameters' default values stand in
Machine/Parameters.lean. -/

namespace Sys2Proof.Machine

/-- The STATUS register: five flags (10_state R23, R27). -/
structure Status where
  /-- negative -/
  n : Bool
  /-- overflow -/
  ov : Bool
  /-- zero -/
  z : Bool
  /-- digit carry -/
  dc : Bool
  /-- carry, not borrow -/
  c : Bool
deriving DecidableEq, Repr

/-- The eight table-write holding registers (10_state R42). -/
structure Holding where
  h0 : Byte
  h1 : Byte
  h2 : Byte
  h3 : Byte
  h4 : Byte
  h5 : Byte
  h6 : Byte
  h7 : Byte
deriving DecidableEq, Repr

end Sys2Proof.Machine

namespace Sys2Proof

open Machine

/-- The three file select registers (10_state R35). -/
inductive FsrNum where
  | fsr0
  | fsr1
  | fsr2
deriving DecidableEq, Repr

/-- The five ways of indirect addressing through an FSR (93_implementation_defined G3, optional part). -/
inductive IndMode where
  | indf
  | postinc
  | postdec
  | preinc
  | plusw
deriving DecidableEq, Repr

/-- The core registers, or bytes of one, that `SFR_MAP` can give a data address (10_state R54). -/
inductive Sfr where
  | tosu
  | tosh
  | tosl
  | pclatu
  | pclath
  | pcl
  | tblptru
  | tblptrh
  | tblptrl
  | tablat
  | prodh
  | prodl
  | intcon
  | wreg
  | bsr
  | status
  | fsrh (n : FsrNum)
  | fsrl (n : FsrNum)
  | ind (m : IndMode) (n : FsrNum)
deriving DecidableEq, Repr

/-- The two settings of `UNIMPL_PROG` and `UNIMPL_DATA` (20_memory R76, R80). -/
inductive Unimplemented where
  /-- an access raises the model fault -/
  | fault
  /-- a read gives zero, a write is discarded -/
  | readZero
deriving DecidableEq, Repr

/-- Which bit of the STATUS byte each flag is: a part of `SFR_MAP` (00_scope R6, decision D3). -/
structure StatusLayout where
  n : BitVec 3
  ov : BitVec 3
  z : BitVec 3
  dc : BitVec 3
  c : BitVec 3
deriving DecidableEq, Repr

/-- Which bit of the INTCON byte each interrupt enable is: a part of `SFR_MAP` (00_scope R6, decision D3). -/
structure IntconLayout where
  gieh : BitVec 3
  giel : BitVec 3
deriving DecidableEq, Repr

/-- An entry of `RESET_STATE` (70_reset R321, R322): what a reset leaves in one element of the state. -/
inductive ResetValue (α : Type) where
  /-- this value -/
  | value (v : α)
  /-- a value that nothing may be assumed of -/
  | unknown
  /-- the value from before the reset -/
  | unchanged
deriving DecidableEq, Repr

/-- One column of `RESET_STATE` (70_reset R322): an entry for every element of the state that the table gives a value.
The pc, the return stack, `IntLevel` and `Asleep` have no entry, since R321 itself fixes them, and program memory is
changed by no reset. -/
structure ResetRow where
  w : ResetValue Byte
  status : ResetValue Status
  bsr : ResetValue (BitVec 4)
  fsr0h : ResetValue (BitVec 4)
  fsr0l : ResetValue Byte
  fsr1h : ResetValue (BitVec 4)
  fsr1l : ResetValue Byte
  fsr2h : ResetValue (BitVec 4)
  fsr2l : ResetValue Byte
  prodh : ResetValue Byte
  prodl : ResetValue Byte
  tblptr : ResetValue ProgAddr
  tablat : ResetValue Byte
  pclath : ResetValue Byte
  pclatu : ResetValue (BitVec 5)
  gieh : ResetValue Bool
  giel : ResetValue Bool
  toBit : ResetValue Bool
  pdBit : ResetValue Bool
  ws : ResetValue Byte
  statuss : ResetValue Status
  bsrs : ResetValue (BitVec 4)
  hold : ResetValue Holding
  wdt : ResetValue Nat
  wdtps : ResetValue Nat
  /-- data memory: a value lists the bytes that are not 0 -/
  data : ResetValue (List (Nat × Byte))
deriving DecidableEq, Repr

/-- `RESET_STATE` (00_scope R6, 70_reset R321, decision D7): a column for each kind of reset. The software reset takes that
of an awake core's MCLR reset (R321). -/
structure ResetTable where
  powerOn : ResetRow
  /-- MCLR of an awake core, and the RESET instruction -/
  mclr : ResetRow
  /-- MCLR of a sleeping core -/
  mclrAsleep : ResetRow
  wdt : ResetRow
deriving DecidableEq, Repr

/-- The parameters of 00_scope R6 that the source leaves open, and three switches for the parts of the spec that a
model may take or leave. Plain data, held in the state, changed by no step. -/
structure Params where
  /-- `PROG_BYTES` (92_eei_decisions D1) -/
  progBytes : Nat
  /-- `RAM_BYTES` (D2) -/
  ramBytes : Nat
  /-- `SFR_MAP` (D3): data address and register; the first entry for an address counts -/
  sfrMap : List (Nat × Sfr)
  /-- `SFR_MAP`'s layout of STATUS (D3) -/
  statusLayout : StatusLayout
  /-- `SFR_MAP`'s layout of INTCON (D3) -/
  intconLayout : IntconLayout
  /-- `STACK_DEPTH` (D4) -/
  stackDepth : Nat
  /-- `RESET_VECTOR` (D5) -/
  resetVector : ProgAddr
  /-- `VEC_HIGH` (D6) -/
  vecHigh : ProgAddr
  /-- `VEC_LOW` (D6) -/
  vecLow : ProgAddr
  /-- `RESET_STATE` (D7) -/
  resetState : ResetTable
  /-- `UNIMPL_PROG` (D8) -/
  unimplProg : Unimplemented
  /-- `UNIMPL_DATA` (D9) -/
  unimplData : Unimplemented
  /-- `WDT_ENABLED` (D10) -/
  wdtEnabled : Bool
  /-- `WDT_PERIOD` in instruction cycles (D10, 60_exceptions R296) -/
  wdtPeriod : Nat
  /-- `IPEN` (D11) -/
  ipen : Bool
  /-- interrupts are modelled: requests are looked at and INTCON is mapped (60_exceptions R293) -/
  interrupts : Bool
  /-- indirect addressing is modelled (93_implementation_defined G3) -/
  indirect : Bool
  /-- PCL and the bytes of TOS are modelled as file registers (93_implementation_defined G4) -/
  pclTos : Bool
deriving DecidableEq, Repr

/-- Free value: what a reset leaves in an element that `RESET_STATE` calls unknown (70_reset R322, 90_conflicts C30), as a
number of which an element of width w takes the low w bits. The first argument numbers the reset, the second the place:
see `resetElements`. Assumption log 2. -/
opaque Config.freeAtReset : Nat → Nat → Nat

/-- Free value: a read of INTCON, of which only the bits of the two interrupt enables are the model's; the others belong
to interrupt sources outside the model (10_state R54). Assumption log 14. -/
opaque Config.freeIntcon : Nat → Byte

/-- Free value: where execution goes on, in words, when an instruction that has written PCL takes a skip. Assumption
log 11. -/
opaque Config.freePcWord : Nat → BitVec 20

/-- Free value: a number of instruction cycles that the spec does not state (70_reset R331). Assumption log 22. -/
opaque Config.freeCycles : Nat → Nat

end Sys2Proof
end

