-- ==== Sys2Proof/Syntax.lean ====
section
/-! DEFINITION. The instructions, whole: one constructor for each of the 76 rows of spec/opcode_table.json (75
instructions, NOP has two encodings). Fields that the manual treats as bits are bit vectors of the encoding's width;
the one-bit selects are names. -/

namespace Sys2Proof

/-- The destination select `d` (30_encoding R101). -/
inductive Dest where
  /-- d = 0: the result goes to WREG -/
  | w
  /-- d = 1: the result goes back to the file register -/
  | f
deriving DecidableEq, Repr

/-- The RAM access bit `a` (30_encoding R101). -/
inductive Access where
  /-- a = 0: the access bank, BSR is ignored -/
  | access
  /-- a = 1: the bank that BSR selects -/
  | banked
deriving DecidableEq, Repr

/-- The instruction set (30_encoding R128). -/
inductive Instr where
  /-- ADDWF: add WREG and f (R143) -/
  | addwf (d : Dest) (a : Access) (f : BitVec 8)
  /-- ADDWFC: add WREG, f and the carry (R144) -/
  | addwfc (d : Dest) (a : Access) (f : BitVec 8)
  /-- ANDWF: AND WREG with f (R145) -/
  | andwf (d : Dest) (a : Access) (f : BitVec 8)
  /-- CLRF: clear f (R146) -/
  | clrf (a : Access) (f : BitVec 8)
  /-- COMF: complement f (R147) -/
  | comf (d : Dest) (a : Access) (f : BitVec 8)
  /-- CPFSEQ: skip if f = WREG (R148) -/
  | cpfseq (a : Access) (f : BitVec 8)
  /-- CPFSGT: skip if f > WREG (R149) -/
  | cpfsgt (a : Access) (f : BitVec 8)
  /-- CPFSLT: skip if f < WREG (R150) -/
  | cpfslt (a : Access) (f : BitVec 8)
  /-- DECF: decrement f (R151) -/
  | decf (d : Dest) (a : Access) (f : BitVec 8)
  /-- DECFSZ: decrement f, skip if zero (R152) -/
  | decfsz (d : Dest) (a : Access) (f : BitVec 8)
  /-- DECFSNZ: decrement f, skip if not zero (R153) -/
  | decfsnz (d : Dest) (a : Access) (f : BitVec 8)
  /-- INCF: increment f (R154) -/
  | incf (d : Dest) (a : Access) (f : BitVec 8)
  /-- INCFSZ: increment f, skip if zero (R155) -/
  | incfsz (d : Dest) (a : Access) (f : BitVec 8)
  /-- INFSNZ: increment f, skip if not zero (R156) -/
  | infsnz (d : Dest) (a : Access) (f : BitVec 8)
  /-- IORWF: inclusive OR WREG with f (R157) -/
  | iorwf (d : Dest) (a : Access) (f : BitVec 8)
  /-- MOVF: move f (R158) -/
  | movf (d : Dest) (a : Access) (f : BitVec 8)
  /-- MOVFF: move fs to fd (R159) -/
  | movff (fs fd : BitVec 12)
  /-- MOVWF: move WREG to f (R160) -/
  | movwf (a : Access) (f : BitVec 8)
  /-- MULWF: multiply WREG by f (R161) -/
  | mulwf (a : Access) (f : BitVec 8)
  /-- NEGF: negate f (R162) -/
  | negf (a : Access) (f : BitVec 8)
  /-- RLCF: rotate f left through carry (R163) -/
  | rlcf (d : Dest) (a : Access) (f : BitVec 8)
  /-- RLNCF: rotate f left (R164) -/
  | rlncf (d : Dest) (a : Access) (f : BitVec 8)
  /-- RRCF: rotate f right through carry (R165) -/
  | rrcf (d : Dest) (a : Access) (f : BitVec 8)
  /-- RRNCF: rotate f right (R166) -/
  | rrncf (d : Dest) (a : Access) (f : BitVec 8)
  /-- SETF: set f (R167) -/
  | setf (a : Access) (f : BitVec 8)
  /-- SUBFWB: subtract f and borrow from WREG (R168) -/
  | subfwb (d : Dest) (a : Access) (f : BitVec 8)
  /-- SUBWF: subtract WREG from f (R169) -/
  | subwf (d : Dest) (a : Access) (f : BitVec 8)
  /-- SUBWFB: subtract WREG and borrow from f (R170) -/
  | subwfb (d : Dest) (a : Access) (f : BitVec 8)
  /-- SWAPF: swap the nibbles of f (R171) -/
  | swapf (d : Dest) (a : Access) (f : BitVec 8)
  /-- TSTFSZ: skip if f = 0 (R172) -/
  | tstfsz (a : Access) (f : BitVec 8)
  /-- XORWF: exclusive OR WREG with f (R173) -/
  | xorwf (d : Dest) (a : Access) (f : BitVec 8)
  /-- BCF: clear bit b of f (R191) -/
  | bcf (b : BitVec 3) (a : Access) (f : BitVec 8)
  /-- BSF: set bit b of f (R192) -/
  | bsf (b : BitVec 3) (a : Access) (f : BitVec 8)
  /-- BTFSC: skip if bit b of f is clear (R193) -/
  | btfsc (b : BitVec 3) (a : Access) (f : BitVec 8)
  /-- BTFSS: skip if bit b of f is set (R194) -/
  | btfss (b : BitVec 3) (a : Access) (f : BitVec 8)
  /-- BTG: toggle bit b of f (R195) -/
  | btg (b : BitVec 3) (a : Access) (f : BitVec 8)
  /-- BC: branch if carry (R201) -/
  | bc (n : BitVec 8)
  /-- BN: branch if negative (R202) -/
  | bn (n : BitVec 8)
  /-- BNC: branch if not carry (R203) -/
  | bnc (n : BitVec 8)
  /-- BNN: branch if not negative (R204) -/
  | bnn (n : BitVec 8)
  /-- BNOV: branch if not overflow (R205) -/
  | bnov (n : BitVec 8)
  /-- BNZ: branch if not zero (R206) -/
  | bnz (n : BitVec 8)
  /-- BOV: branch if overflow (R207) -/
  | bov (n : BitVec 8)
  /-- BZ: branch if zero (R208) -/
  | bz (n : BitVec 8)
  /-- BRA: branch always (R209) -/
  | bra (n : BitVec 11)
  /-- CALL: call; s = fast save (R210) -/
  | call (s : Bool) (k : BitVec 20)
  /-- CLRWDT: clear the watchdog timer (R211) -/
  | clrwdt
  /-- GOTO: jump (R212) -/
  | goto (k : BitVec 20)
  /-- DAW: decimal adjust WREG (R213) -/
  | daw
  /-- NOP: no operation (R214) -/
  | nop
  /-- NOP: no operation, the second encoding; x is ignored (R215) -/
  | nopF (x : BitVec 12)
  /-- POP: drop the top of the return stack (R216) -/
  | pop
  /-- PUSH: push the next address (R217) -/
  | push
  /-- RCALL: relative call (R218) -/
  | rcall (n : BitVec 11)
  /-- RESET: software reset (R219) -/
  | reset
  /-- RETLW: return with k in WREG (R220) -/
  | retlw (k : BitVec 8)
  /-- RETFIE: return from interrupt; s = fast restore (R221) -/
  | retfie (s : Bool)
  /-- RETURN: return; s = fast restore (R222) -/
  | ret (s : Bool)
  /-- SLEEP: enter sleep (R223) -/
  | sleep
  /-- ADDLW: add k to WREG (R241) -/
  | addlw (k : BitVec 8)
  /-- ANDLW: AND k with WREG (R242) -/
  | andlw (k : BitVec 8)
  /-- IORLW: inclusive OR k with WREG (R243) -/
  | iorlw (k : BitVec 8)
  /-- MOVLB: move k to BSR (R244) -/
  | movlb (k : BitVec 8)
  /-- LFSR: load FSR number f (R245) -/
  | lfsr (f : BitVec 2) (k : BitVec 12)
  /-- MOVLW: move k to WREG (R246) -/
  | movlw (k : BitVec 8)
  /-- MULLW: multiply WREG by k (R247) -/
  | mullw (k : BitVec 8)
  /-- SUBLW: subtract WREG from k (R248) -/
  | sublw (k : BitVec 8)
  /-- XORLW: exclusive OR k with WREG (R249) -/
  | xorlw (k : BitVec 8)
  /-- TBLRD *: table read, pointer unchanged (R261) -/
  | tblrd
  /-- TBLRD *+: table read, post-increment (R262) -/
  | tblrdPostInc
  /-- TBLRD *-: table read, post-decrement (R263) -/
  | tblrdPostDec
  /-- TBLRD +*: table read, pre-increment (R264) -/
  | tblrdPreInc
  /-- TBLWT *: table write, pointer unchanged (R266) -/
  | tblwt
  /-- TBLWT *+: table write, post-increment (R267) -/
  | tblwtPostInc
  /-- TBLWT *-: table write, post-decrement (R268) -/
  | tblwtPostDec
  /-- TBLWT +*: table write, pre-increment (R269) -/
  | tblwtPreInc
deriving DecidableEq, Repr

end Sys2Proof
end

