-- ==== Sys2Proof/WellFormed.lean ====
section
/-! DEFINITION. Which instruction terms stand for instructions of the machine. The types of the fields hold every
width; one range is narrower than its field: LFSR's register number. -/

namespace Sys2Proof

/-- LFSR names an FSR 0, 1 or 2; the field value 3 is a reserved encoding (30_encoding R111, R120). Every other
combination of field values is an instruction. A Bool, so that it evaluates. -/
def Instr.wellFormed : Instr → Bool
  | .lfsr f _ => f != 3#2
  | _ => true

end Sys2Proof
end

