-- ==== Sys2Proof/Decode.lean ====
section
/-! DEFINITION. The decoder, total on any words and any bytes, rejecting by name; after it the encoder, from the same
tables of 30_encoding. The decoder follows R115: it selects on bits 15..12 of the first word, then on further bits. -/

namespace Sys2Proof

/-- Why bytes or words are not an instruction. -/
inductive DecodeError where
  /-- fewer bytes or words than the instruction needs -/
  | truncated
  /-- the word is one of the 1469 that match no pattern (30_encoding R120) -/
  | reserved (w : Word)
  /-- the second word lacks its fixed bits (30_encoding R122) -/
  | malformed (w w2 : Word)
deriving DecidableEq, Repr

/-- The first word of a two-word instruction, with the operand bits it holds (30_encoding R103, R106, R107, R111). -/
inductive TwoWord where
  | movff (fs : BitVec 12)
  | call (s : Bool) (kLow : BitVec 8)
  | goto (kLow : BitVec 8)
  | lfsr (f : BitVec 2) (kHigh : BitVec 4)
deriving DecidableEq, Repr

/-- What the first word alone decides (30_encoding R110: the length is decided by the first word alone). -/
inductive FirstWord where
  | one (i : Instr)
  | two (t : TwoWord)
  | reserved
deriving DecidableEq, Repr

/-! ## Fields -/

/-- Field `a`, bit 8. -/
def accessField (w : Word) : Access := if w.getLsbD 8 then .banked else .access

/-- Field `d`, bit 9. -/
def destField (w : Word) : Dest := if w.getLsbD 9 then .f else .w

/-- Fields `f`, `k` and `n` of 8 bits, bits 7..0. -/
def lowByte (w : Word) : BitVec 8 := w.extractLsb' 0 8

/-- Field `b`, bits 11..9. -/
def bitField (w : Word) : BitVec 3 := w.extractLsb' 9 3

/-- Fields of 12 bits, bits 11..0. -/
def lowTwelve (w : Word) : BitVec 12 := w.extractLsb' 0 12

/-! ## The opcode maps -/

/-- The `byte-d-a` map by bits 15..10 (30_encoding R117, and DECF from R115). -/
def decodeByteDA (w : Word) : FirstWord :=
  let d := destField w
  let a := accessField w
  let f := lowByte w
  match (w.extractLsb' 10 6).toNat with
  | 0b000001 => .one (.decf d a f)
  | 0b000100 => .one (.iorwf d a f)
  | 0b000101 => .one (.andwf d a f)
  | 0b000110 => .one (.xorwf d a f)
  | 0b000111 => .one (.comf d a f)
  | 0b001000 => .one (.addwfc d a f)
  | 0b001001 => .one (.addwf d a f)
  | 0b001010 => .one (.incf d a f)
  | 0b001011 => .one (.decfsz d a f)
  | 0b001100 => .one (.rrcf d a f)
  | 0b001101 => .one (.rlcf d a f)
  | 0b001110 => .one (.swapf d a f)
  | 0b001111 => .one (.incfsz d a f)
  | 0b010000 => .one (.rrncf d a f)
  | 0b010001 => .one (.rlncf d a f)
  | 0b010010 => .one (.infsnz d a f)
  | 0b010011 => .one (.decfsnz d a f)
  | 0b010100 => .one (.movf d a f)
  | 0b010101 => .one (.subfwb d a f)
  | 0b010110 => .one (.subwfb d a f)
  | 0b010111 => .one (.subwf d a f)
  | _ => .reserved

/-- The `byte-a` map of bits 15..12 = 0110 by bits 11..9 (30_encoding R118). -/
def decodeByteA (w : Word) : FirstWord :=
  let a := accessField w
  let f := lowByte w
  match (w.extractLsb' 9 3).toNat with
  | 0b000 => .one (.cpfslt a f)
  | 0b001 => .one (.cpfseq a f)
  | 0b010 => .one (.cpfsgt a f)
  | 0b011 => .one (.tstfsz a f)
  | 0b100 => .one (.setf a f)
  | 0b101 => .one (.clrf a f)
  | 0b110 => .one (.negf a f)
  | _ => .one (.movwf a f)

/-- The inherent group, bits 15..8 = 0, by bits 7..0 (30_encoding R116). -/
def decodeInherent (w : Word) : FirstWord :=
  match (lowByte w).toNat with
  | 0x00 => .one .nop
  | 0x03 => .one .sleep
  | 0x04 => .one .clrwdt
  | 0x05 => .one .push
  | 0x06 => .one .pop
  | 0x07 => .one .daw
  | 0x08 => .one .tblrd
  | 0x09 => .one .tblrdPostInc
  | 0x0A => .one .tblrdPostDec
  | 0x0B => .one .tblrdPreInc
  | 0x0C => .one .tblwt
  | 0x0D => .one .tblwtPostInc
  | 0x0E => .one .tblwtPostDec
  | 0x0F => .one .tblwtPreInc
  | 0x10 => .one (.retfie false)
  | 0x11 => .one (.retfie true)
  | 0x12 => .one (.ret false)
  | 0x13 => .one (.ret true)
  | 0xFF => .one .reset
  | _ => .reserved

/-- The group of bits 15..12 = 0000 by bits 11..8 (30_encoding R115). MOVLW stands at 1110 (R129). -/
def decodeGroup0 (w : Word) : FirstWord :=
  let k := lowByte w
  match (w.extractLsb' 8 4).toNat with
  | 0b0000 => decodeInherent w
  | 0b0001 => .one (.movlb k)
  | 0b0010 => .one (.mulwf (accessField w) k)
  | 0b0011 => .one (.mulwf (accessField w) k)
  | 0b1000 => .one (.sublw k)
  | 0b1001 => .one (.iorlw k)
  | 0b1010 => .one (.xorlw k)
  | 0b1011 => .one (.andlw k)
  | 0b1100 => .one (.retlw k)
  | 0b1101 => .one (.mullw k)
  | 0b1110 => .one (.movlw k)
  | 0b1111 => .one (.addlw k)
  | _ => decodeByteDA w

/-- The group of bits 15..12 = 1110 by bits 11..8 (30_encoding R119). LFSR needs bits 7..6 = 00 and bits 5..4 other
than 11. -/
def decodeGroupE (w : Word) : FirstWord :=
  let n := lowByte w
  match (w.extractLsb' 8 4).toNat with
  | 0b0000 => .one (.bz n)
  | 0b0001 => .one (.bnz n)
  | 0b0010 => .one (.bc n)
  | 0b0011 => .one (.bnc n)
  | 0b0100 => .one (.bov n)
  | 0b0101 => .one (.bnov n)
  | 0b0110 => .one (.bn n)
  | 0b0111 => .one (.bnn n)
  | 0b1100 => .two (.call false n)
  | 0b1101 => .two (.call true n)
  | 0b1110 =>
    if w.extractLsb' 6 2 = 0#2 ∧ w.extractLsb' 4 2 ≠ 3#2 then
      .two (.lfsr (w.extractLsb' 4 2) (w.extractLsb' 0 4))
    else .reserved
  | 0b1111 => .two (.goto n)
  | _ => .reserved

/-- The decode procedure for a first word (30_encoding R115). -/
def firstWord (w : Word) : FirstWord :=
  match (w.extractLsb' 12 4).toNat with
  | 0x0 => decodeGroup0 w
  | 0x6 => decodeByteA w
  | 0x7 => .one (.btg (bitField w) (accessField w) (lowByte w))
  | 0x8 => .one (.bsf (bitField w) (accessField w) (lowByte w))
  | 0x9 => .one (.bcf (bitField w) (accessField w) (lowByte w))
  | 0xA => .one (.btfss (bitField w) (accessField w) (lowByte w))
  | 0xB => .one (.btfsc (bitField w) (accessField w) (lowByte w))
  | 0xC => .two (.movff (lowTwelve w))
  | 0xD =>
    if w.getLsbD 11 then .one (.rcall (w.extractLsb' 0 11)) else .one (.bra (w.extractLsb' 0 11))
  | 0xE => decodeGroupE w
  | 0xF => .one (.nopF (lowTwelve w))
  | _ => decodeByteDA w

/-- The second word of a two-word instruction: bits 15..12 must be 1111, and for LFSR bits 11..8 must be 0000
(30_encoding R122). The split constants are put together by R114 (d), (e). -/
def secondWord (t : TwoWord) (w2 : Word) : Option Instr :=
  if w2.extractLsb' 12 4 = 0xF#4 then
    match t with
    | .movff fs => some (.movff fs (lowTwelve w2))
    | .call s k => some (.call s (lowTwelve w2 ++ k))
    | .goto k => some (.goto (lowTwelve w2 ++ k))
    | .lfsr f k => if w2.extractLsb' 8 4 = 0#4 then some (.lfsr f (k ++ lowByte w2)) else none
  else none

/-- `IsTwoWord(w)`: the word is the first of a two-word instruction (30_encoding R110). -/
def isTwoWord (w : Word) : Bool :=
  match firstWord w with
  | .two _ => true
  | _ => false

/-- Decode one instruction from the front of a list of words; the words after it are returned. -/
def decode : List Word → Except DecodeError (Instr × List Word)
  | [] => .error .truncated
  | w :: ws =>
    match firstWord w with
    | .one i => .ok (i, ws)
    | .reserved => .error (.reserved w)
    | .two t =>
      match ws with
      | [] => .error .truncated
      | w2 :: ws' =>
        match secondWord t w2 with
        | some i => .ok (i, ws')
        | none => .error (.malformed w w2)

/-- The words that bytes hold, the less significant byte of a word first (20_memory R78). A last odd byte is no word. -/
def wordsOfBytes : List Byte → List Word
  | lo :: hi :: bs => (hi ++ lo) :: wordsOfBytes bs
  | _ => []

/-- The bytes of words, in the order of 20_memory R78. -/
def bytesOfWords (ws : List Word) : List Byte :=
  ws.flatMap fun w => [w.extractLsb' 0 8, w.extractLsb' 8 8]

/-- Decode one instruction from bytes in the order of program memory. -/
def decodeBytes (bs : List Byte) : Except DecodeError Instr :=
  match decode (wordsOfBytes bs) with
  | .ok (i, _) => .ok i
  | .error e => .error e

/-- The bytes of an instruction whose bits are `w` in `nbits` bits, every bit above them 0, up to the two words of the
longest instruction: bits 15..0 are the first word, bits 31..16 the second. -/
def tableBytes (nbits w : Nat) : List Byte :=
  let bits := BitVec.ofNat 32 (w % 2 ^ nbits)
  bytesOfWords [bits.extractLsb' 0 16, bits.extractLsb' 16 16]

/-- The instruction that the decoder reads from an instruction whose bits are `w`, numbered as spec/opcode_table.json
numbers them; none where the decoder refuses. -/
def decodeTableWord (nbits w : Nat) : Option Instr :=
  match decodeBytes (tableBytes nbits w) with
  | .ok i => some i
  | .error _ => none

/-! ## The encoder -/

/-- The bit `d` (30_encoding R101). -/
def Dest.bit : Dest → BitVec 1
  | .w => 0#1
  | .f => 1#1

/-- The bit `a` (30_encoding R101). -/
def Access.bit : Access → BitVec 1
  | .access => 0#1
  | .banked => 1#1

/-- Format `byte-d-a` (30_encoding R101). -/
def encByteDA (op : BitVec 6) (d : Dest) (a : Access) (f : BitVec 8) : Word := op ++ (d.bit ++ (a.bit ++ f))

/-- Format `byte-a` (30_encoding R102). -/
def encByteA (op : BitVec 7) (a : Access) (f : BitVec 8) : Word := op ++ (a.bit ++ f)

/-- Format `bit` (30_encoding R104). -/
def encBit (op : BitVec 4) (b : BitVec 3) (a : Access) (f : BitVec 8) : Word := op ++ (b ++ (a.bit ++ f))

/-- Formats with an 8-bit opcode and an 8-bit field (30_encoding R105, R109). -/
def encLow8 (op k : BitVec 8) : Word := op ++ k

/-- Format `branch11` (30_encoding R108). -/
def encBranch11 (op : BitVec 5) (n : BitVec 11) : Word := op ++ n

/-- A word of four fixed bits and a 12-bit field (30_encoding R103, R106, R107, R123). -/
def encLow12 (op : BitVec 4) (x : BitVec 12) : Word := op ++ x

/-- The words of an instruction, from the patterns of 30_encoding R128. -/
def encode : Instr → List Word
  | .addwf d a f => [encByteDA 0b001001#6 d a f]
  | .addwfc d a f => [encByteDA 0b001000#6 d a f]
  | .andwf d a f => [encByteDA 0b000101#6 d a f]
  | .clrf a f => [encByteA 0b0110101#7 a f]
  | .comf d a f => [encByteDA 0b000111#6 d a f]
  | .cpfseq a f => [encByteA 0b0110001#7 a f]
  | .cpfsgt a f => [encByteA 0b0110010#7 a f]
  | .cpfslt a f => [encByteA 0b0110000#7 a f]
  | .decf d a f => [encByteDA 0b000001#6 d a f]
  | .decfsz d a f => [encByteDA 0b001011#6 d a f]
  | .decfsnz d a f => [encByteDA 0b010011#6 d a f]
  | .incf d a f => [encByteDA 0b001010#6 d a f]
  | .incfsz d a f => [encByteDA 0b001111#6 d a f]
  | .infsnz d a f => [encByteDA 0b010010#6 d a f]
  | .iorwf d a f => [encByteDA 0b000100#6 d a f]
  | .movf d a f => [encByteDA 0b010100#6 d a f]
  | .movff fs fd => [encLow12 0b1100#4 fs, encLow12 0b1111#4 fd]
  | .movwf a f => [encByteA 0b0110111#7 a f]
  | .mulwf a f => [encByteA 0b0000001#7 a f]
  | .negf a f => [encByteA 0b0110110#7 a f]
  | .rlcf d a f => [encByteDA 0b001101#6 d a f]
  | .rlncf d a f => [encByteDA 0b010001#6 d a f]
  | .rrcf d a f => [encByteDA 0b001100#6 d a f]
  | .rrncf d a f => [encByteDA 0b010000#6 d a f]
  | .setf a f => [encByteA 0b0110100#7 a f]
  | .subfwb d a f => [encByteDA 0b010101#6 d a f]
  | .subwf d a f => [encByteDA 0b010111#6 d a f]
  | .subwfb d a f => [encByteDA 0b010110#6 d a f]
  | .swapf d a f => [encByteDA 0b001110#6 d a f]
  | .tstfsz a f => [encByteA 0b0110011#7 a f]
  | .xorwf d a f => [encByteDA 0b000110#6 d a f]
  | .bcf b a f => [encBit 0b1001#4 b a f]
  | .bsf b a f => [encBit 0b1000#4 b a f]
  | .btfsc b a f => [encBit 0b1011#4 b a f]
  | .btfss b a f => [encBit 0b1010#4 b a f]
  | .btg b a f => [encBit 0b0111#4 b a f]
  | .bc n => [encLow8 0b11100010#8 n]
  | .bn n => [encLow8 0b11100110#8 n]
  | .bnc n => [encLow8 0b11100011#8 n]
  | .bnn n => [encLow8 0b11100111#8 n]
  | .bnov n => [encLow8 0b11100101#8 n]
  | .bnz n => [encLow8 0b11100001#8 n]
  | .bov n => [encLow8 0b11100100#8 n]
  | .bz n => [encLow8 0b11100000#8 n]
  | .bra n => [encBranch11 0b11010#5 n]
  | .call s k => [encLow8 (0b1110110#7 ++ BitVec.ofBool s) (k.extractLsb' 0 8), encLow12 0b1111#4 (k.extractLsb' 8 12)]
  | .clrwdt => [0x0004#16]
  | .goto k => [encLow8 0b11101111#8 (k.extractLsb' 0 8), encLow12 0b1111#4 (k.extractLsb' 8 12)]
  | .daw => [0x0007#16]
  | .nop => [0x0000#16]
  | .nopF x => [encLow12 0b1111#4 x]
  | .pop => [0x0006#16]
  | .push => [0x0005#16]
  | .rcall n => [encBranch11 0b11011#5 n]
  | .reset => [0x00FF#16]
  | .retlw k => [encLow8 0b00001100#8 k]
  | .retfie s => [0b000000000001000#15 ++ BitVec.ofBool s]
  | .ret s => [0b000000000001001#15 ++ BitVec.ofBool s]
  | .sleep => [0x0003#16]
  | .addlw k => [encLow8 0b00001111#8 k]
  | .andlw k => [encLow8 0b00001011#8 k]
  | .iorlw k => [encLow8 0b00001001#8 k]
  | .movlb k => [encLow8 0b00000001#8 k]
  | .lfsr f k => [encLow8 0b11101110#8 (0b00#2 ++ (f ++ k.extractLsb' 8 4)), encLow8 0b11110000#8 (k.extractLsb' 0 8)]
  | .movlw k => [encLow8 0b00001110#8 k]
  | .mullw k => [encLow8 0b00001101#8 k]
  | .sublw k => [encLow8 0b00001000#8 k]
  | .xorlw k => [encLow8 0b00001010#8 k]
  | .tblrd => [0x0008#16]
  | .tblrdPostInc => [0x0009#16]
  | .tblrdPostDec => [0x000A#16]
  | .tblrdPreInc => [0x000B#16]
  | .tblwt => [0x000C#16]
  | .tblwtPostInc => [0x000D#16]
  | .tblwtPostDec => [0x000E#16]
  | .tblwtPreInc => [0x000F#16]

end Sys2Proof
end

