-- ==== Sys2Proof/Machine/Memory.lean ====
section
/-! DEFINITION. Memory: a list of (address, byte) pairs in one canonical form, addresses strictly rising and no entry
equal to what an unlisted address reads as. Data memory and program memory are both such lists. -/

namespace Sys2Proof.Machine

/-- A memory: its cells that differ from `Memory.unlisted`. -/
abbrev Memory := List Host.Cell

/-- What a byte reads as at an address that the list does not hold. DESIGN CHOICE, unsafe: the spec gives data memory no
contents after reset and the program image none where nothing was loaded (assumption log 3). -/
def Memory.unlisted : Byte := 0x00#8

/-- The byte at an address. -/
def Memory.read : Memory → Nat → Byte
  | [], _ => Memory.unlisted
  | (a, v) :: m, k => if a = k then v else Memory.read m k

/-- Store a byte; storing what an unlisted address reads as takes the entry out. -/
def Memory.write : Memory → Nat → Byte → Memory
  | [], k, b => if b = Memory.unlisted then [] else [(k, b)]
  | (a, v) :: m, k, b =>
    if k < a then (if b = Memory.unlisted then (a, v) :: m else (k, b) :: (a, v) :: m)
    else if k = a then (if b = Memory.unlisted then m else (k, b) :: m)
    else (a, v) :: Memory.write m k b

/-- The memory that reads as `f` at the addresses below `n` and as unlisted elsewhere. -/
def Memory.tabulate (n : Nat) (f : Nat → Byte) : Memory :=
  (List.range n).filterMap fun a => if f a = Memory.unlisted then none else some (a, f a)

/-- The memory of these cells below `n`, in canonical form; of two cells at one address the first counts. -/
def Memory.ofCells (n : Nat) (cells : List (Nat × Byte)) : Memory :=
  cells.foldr (fun c m => if c.1 < n then m.write c.1 c.2 else m) []

/-- The canonical form. -/
abbrev Memory.wf (m : Memory) : Prop :=
  m.Pairwise (fun x y => x.1 < y.1) ∧ ∀ c ∈ m, c.2 ≠ Memory.unlisted

/-- Every listed address is below `n`. -/
abbrev Memory.below (m : Memory) (n : Nat) : Prop := ∀ c ∈ m, c.1 < n

end Sys2Proof.Machine
end

