-- ==== Sys2Proof/Machine/Parameters.lean ====
section
/-! DEFINITION. The parameters' default values (00_scope R6, 92_eei_decisions), the two standard choices of the optional
parts, and the reading of `SFR_MAP` and of `RESET_STATE`. -/

namespace Sys2Proof

/-- The default `SFR_MAP`: the addresses of the PIC18Fxx2 parts (10_state R54, 93_implementation_defined G1). PRESUMED,
unsafe: the source gives no address (assumption log 4). The addresses marked (**) in R54 are left out of the map, so an
access to one faults. -/
def defaultSfrMap : List (Nat × Sfr) :=
  [(0xFFF, .tosu), (0xFFE, .tosh), (0xFFD, .tosl),
   (0xFFB, .pclatu), (0xFFA, .pclath), (0xFF9, .pcl),
   (0xFF8, .tblptru), (0xFF7, .tblptrh), (0xFF6, .tblptrl), (0xFF5, .tablat),
   (0xFF4, .prodh), (0xFF3, .prodl), (0xFF2, .intcon),
   (0xFEF, .ind .indf .fsr0), (0xFEE, .ind .postinc .fsr0), (0xFED, .ind .postdec .fsr0),
   (0xFEC, .ind .preinc .fsr0), (0xFEB, .ind .plusw .fsr0),
   (0xFEA, .fsrh .fsr0), (0xFE9, .fsrl .fsr0), (0xFE8, .wreg),
   (0xFE7, .ind .indf .fsr1), (0xFE6, .ind .postinc .fsr1), (0xFE5, .ind .postdec .fsr1),
   (0xFE4, .ind .preinc .fsr1), (0xFE3, .ind .plusw .fsr1),
   (0xFE2, .fsrh .fsr1), (0xFE1, .fsrl .fsr1), (0xFE0, .bsr),
   (0xFDF, .ind .indf .fsr2), (0xFDE, .ind .postinc .fsr2), (0xFDD, .ind .postdec .fsr2),
   (0xFDC, .ind .preinc .fsr2), (0xFDB, .ind .plusw .fsr2),
   (0xFDA, .fsrh .fsr2), (0xFD9, .fsrl .fsr2), (0xFD8, .status)]

/-- The default layout of STATUS (10_state R27, 93_implementation_defined G2). PRESUMED (assumption log 5). -/
def defaultStatusLayout : StatusLayout := ⟨4, 3, 2, 1, 0⟩

/-- The default layout of INTCON (10_state R54, 93_implementation_defined G2). PRESUMED (assumption log 14). -/
def defaultIntconLayout : IntconLayout := ⟨7, 6⟩

/-- The column "mclr, software, wdt" of the default `RESET_STATE` (70_reset R322), with TO and PD as they are for an MCLR
reset of an awake core and for the RESET instruction. PRESUMED, unsafe (assumption log 4). -/
def defaultResetMclr : ResetRow where
  w := .unchanged
  status := .unknown
  bsr := .value 0
  fsr0h := .value 0
  fsr0l := .unchanged
  fsr1h := .value 0
  fsr1l := .unchanged
  fsr2h := .value 0
  fsr2l := .unchanged
  prodh := .unchanged
  prodl := .unchanged
  tblptr := .value 0
  tablat := .value 0
  pclath := .value 0
  pclatu := .value 0
  gieh := .value false
  giel := .value false
  toBit := .unchanged
  pdBit := .unchanged
  ws := .unchanged
  statuss := .unchanged
  bsrs := .unchanged
  hold := .unknown
  wdt := .value 0
  wdtps := .value 0
  data := .unchanged

/-- The column "power_on" of the default `RESET_STATE` (70_reset R322): beside the other column, what that one leaves
unchanged is unknown, and TO and PD are 1. PRESUMED, unsafe (assumption log 4). -/
def defaultResetPowerOn : ResetRow :=
  { defaultResetMclr with
    w := .unknown
    fsr0l := .unknown
    fsr1l := .unknown
    fsr2l := .unknown
    prodh := .unknown
    prodl := .unknown
    toBit := .value true
    pdBit := .value true
    ws := .unknown
    statuss := .unknown
    bsrs := .unknown
    data := .unknown }

/-- The default `RESET_STATE` (70_reset R322): TO and PD are 1, 0 after an MCLR reset of a sleeping core, and 0, 1 after a
watchdog reset. PRESUMED, unsafe (assumption log 4). -/
def defaultResetState : ResetTable where
  powerOn := defaultResetPowerOn
  mclr := defaultResetMclr
  mclrAsleep := { defaultResetMclr with toBit := .value true, pdBit := .value false }
  wdt := { defaultResetMclr with toBit := .value false, pdBit := .value true }

/-- What an entry of `RESET_STATE` makes of an element: its value, the free value `free` where it is unknown, and what the
element was where it is unchanged (70_reset R322). -/
def ResetValue.pick {α : Type} (r : ResetValue α) (old free : α) : α :=
  match r with
  | .value v => v
  | .unknown => free
  | .unchanged => old

/-- The value that an entry of `RESET_STATE` gives a machine with no past: the entry's own, or one that the model names. -/
def ResetValue.named {α : Type} (r : ResetValue α) (v : α) : α :=
  match r with
  | .value x => x
  | .unknown => v
  | .unchanged => v

/-- The register that `SFR_MAP` gives an address. -/
def Params.sfrAt (p : Params) (i : DataAddr) : Option Sfr := p.sfrMap.lookup i.toNat

/-- Whether the model, with its switches, has a register that the map names: the indirect registers, PCL and the bytes
of TOS, and INTCON belong to the optional parts (10_state R54). -/
def Params.models (p : Params) : Sfr → Bool
  | .ind _ _ => p.indirect
  | .pcl => p.pclTos
  | .tosu => p.pclTos
  | .tosh => p.pclTos
  | .tosl => p.pclTos
  | .intcon => p.interrupts
  | _ => true

/-- Every parameter at its default, with every optional part of the spec: interrupts (60_exceptions R284 to R292),
indirect addressing (93 G3), PCL and TOS access (93 G4). Vectors, depth and map are the family's: PRESUMED, unsafe
(assumption log 4, 7, 8); taking the optional parts is a DESIGN CHOICE (assumption log 25). -/
def Params.full : Params where
  progBytes := 2097152
  ramBytes := 3968
  sfrMap := defaultSfrMap
  statusLayout := defaultStatusLayout
  intconLayout := defaultIntconLayout
  stackDepth := 31
  resetVector := 0x000000#21
  vecHigh := 0x000008#21
  vecLow := 0x000018#21
  resetState := defaultResetState
  unimplProg := .fault
  unimplData := .fault
  wdtEnabled := false
  wdtPeriod := 0
  ipen := true
  interrupts := true
  indirect := true
  pclTos := true

/-- The spec's base model: the same defaults and none of the optional parts (60_exceptions R293, 92 D18). -/
def Params.base : Params :=
  { Params.full with interrupts := false, indirect := false, pclTos := false }

end Sys2Proof
end

