-- ==== Sys2Proof/Machine/State.lean ====
section
/-! DEFINITION. The state of the machine as plain data (10_state R56 and INVENTORY.md), the reasons a step can stop, and
the state right after reset. -/

namespace Sys2Proof.Machine

/-- Which interrupt handler is running (10_state R49). -/
inductive IntLevel where
  | none
  | low
  | high
  | highOverLow
deriving DecidableEq, Repr

/-- The kinds of reset (70_reset R320). -/
inductive ResetKind where
  | powerOn
  | mclr
  | software
  | wdt
deriving DecidableEq, Repr

/-- The resets that come from outside the core (70_reset R320). -/
inductive ExternalReset where
  | powerOn
  | mclr
deriving DecidableEq, Repr

/-- What the environment does at one instruction boundary (60_exceptions R285, R289, R296, R297; 70_reset R320). -/
structure BoundaryInput where
  /-- an enabled high-priority source is requesting -/
  irqHigh : Bool
  /-- an enabled low-priority source is requesting -/
  irqLow : Bool
  /-- the watchdog times out; heard only with `wdtEnabled` -/
  wdtTimeout : Bool
  /-- the watchdog counters have counted to these values; heard only with `wdtEnabled` -/
  wdtCount : Option (Nat × Nat)
  /-- a reset from outside -/
  reset : Option ExternalReset
deriving DecidableEq, Repr

/-- The model faults of 60_exceptions R281. None is an event of the hardware: each stops the model where the source
gives no meaning, with no state changed. All are safe: the model refuses what the hardware would run on. -/
inductive Fault where
  /-- raised by decoding at `addr`, and by a skip over that word: the word matches no pattern. Safe. -/
  | reservedInstruction (addr : ProgAddr) (w : Word)
  /-- raised by MOVFF, CALL, GOTO, LFSR and a skip over one: the second word lacks its fixed bits. Safe. -/
  | malformedSecondWord (addr : ProgAddr) (w w2 : Word)
  /-- raised by MOVFF to PCL, TOSU, TOSH or TOSL. Safe. -/
  | forbiddenMovffDest (fd : DataAddr)
  /-- raised by a data access to an SFR address that maps to no modelled register. Safe. -/
  | unmodelledSFR (i : DataAddr)
  /-- raised by a data access to absent general-purpose memory, with `unimplData = fault`. Safe. -/
  | unimplementedData (i : DataAddr)
  /-- raised by a fetch or a table read of absent program memory, with `unimplProg = fault`. Safe. -/
  | unimplementedProgram (addr : ProgAddr)
  /-- raised by a push of `v` onto a full return stack: CALL, RCALL, PUSH, interrupt entry. Safe. -/
  | stackOverflow (v : ProgAddr)
  /-- raised by a pop of the empty return stack: RETURN, RETLW, RETFIE, POP. Safe. -/
  | stackUnderflow
deriving DecidableEq, Repr

/-- Why the model declines an instruction. -/
inductive Refusal where
  /-- raised by `exec` for an instruction that has no meaning yet; no instruction of this model. Safe. -/
  | notModelled (mnemonic : String)
deriving DecidableEq, Repr

/-- The state of the machine. -/
structure State where
  /-- the implementation's parameters (00_scope R6); no step changes them -/
  params : Params
  /-- program counter (10_state R37) -/
  pc : ProgAddr
  /-- WREG (R21) -/
  w : Byte
  /-- STATUS (R27) -/
  status : Status
  /-- TO, 0 after a watchdog time-out (R33) -/
  toBit : Bool
  /-- PD, 0 after SLEEP (R33) -/
  pdBit : Bool
  /-- bank select register (R34) -/
  bsr : BitVec 4
  /-- file select registers (R35) -/
  fsr0 : BitVec 12
  fsr1 : BitVec 12
  fsr2 : BitVec 12
  /-- product (R36) -/
  prodh : Byte
  prodl : Byte
  /-- latches of the upper bytes of the pc (R39) -/
  pclath : Byte
  pclatu : BitVec 5
  /-- table pointer and table latch (R40, R41) -/
  tblptr : ProgAddr
  tablat : Byte
  /-- holding registers (R42) -/
  hold : Holding
  /-- return-address stack, top last (R43) -/
  stack : List ProgAddr
  /-- fast-save registers (R47) -/
  ws : Byte
  statuss : Status
  bsrs : BitVec 4
  /-- interrupt enables (R48) -/
  gieh : Bool
  giel : Bool
  /-- which handler is running (R49) -/
  intLevel : IntLevel
  /-- watchdog counter and prescaler (R50) -/
  wdt : Nat
  wdtps : Nat
  /-- the model's own: what `cycles` was when the watchdog counter was last cleared (60_exceptions R296) -/
  wdtClearedAt : Nat
  /-- the sleep state (R51) -/
  asleep : Bool
  /-- data memory below the SFR area (20_memory R70) -/
  data : Memory
  /-- program memory (20_memory R77) -/
  prog : Memory
  /-- the environment's moves still to come (00_scope R8) -/
  inputs : List BoundaryInput
  /-- the model's own: the number of the next free value -/
  freeIdx : Nat
  /-- instruction cycles run (70_reset R330) -/
  cycles : Nat
deriving DecidableEq, Repr

/-- All five flags 0. -/
def Status.clear : Status := ⟨false, false, false, false, false⟩

/-- The machine right after power-on reset of a part with these parameters: the column power_on of its `RESET_STATE`
(70_reset R321, R322), with what that leaves unknown as R325 takes it for a run (0, and 0xFF for the holding registers).
DESIGN CHOICE and PRESUMED, unsafe (assumption log 1, 4). The reset OPERATION leaves the unknown values free: see
`doReset`. -/
def State.initial (p : Params) : State where
  params := p
  pc := p.resetVector &&& 0x1FFFFE#21
  w := p.resetState.powerOn.w.named 0x00#8
  status := p.resetState.powerOn.status.named Status.clear
  toBit := p.resetState.powerOn.toBit.named true
  pdBit := p.resetState.powerOn.pdBit.named true
  bsr := p.resetState.powerOn.bsr.named 0#4
  fsr0 := p.resetState.powerOn.fsr0h.named 0#4 ++ p.resetState.powerOn.fsr0l.named 0x00#8
  fsr1 := p.resetState.powerOn.fsr1h.named 0#4 ++ p.resetState.powerOn.fsr1l.named 0x00#8
  fsr2 := p.resetState.powerOn.fsr2h.named 0#4 ++ p.resetState.powerOn.fsr2l.named 0x00#8
  prodh := p.resetState.powerOn.prodh.named 0x00#8
  prodl := p.resetState.powerOn.prodl.named 0x00#8
  pclath := p.resetState.powerOn.pclath.named 0x00#8
  pclatu := p.resetState.powerOn.pclatu.named 0#5
  tblptr := p.resetState.powerOn.tblptr.named 0#21
  tablat := p.resetState.powerOn.tablat.named 0x00#8
  hold := p.resetState.powerOn.hold.named ⟨0xFF#8, 0xFF#8, 0xFF#8, 0xFF#8, 0xFF#8, 0xFF#8, 0xFF#8, 0xFF#8⟩
  stack := []
  ws := p.resetState.powerOn.ws.named 0x00#8
  statuss := p.resetState.powerOn.statuss.named Status.clear
  bsrs := p.resetState.powerOn.bsrs.named 0#4
  gieh := p.resetState.powerOn.gieh.named false
  giel := p.resetState.powerOn.giel.named false
  intLevel := .none
  wdt := p.resetState.powerOn.wdt.named 0
  wdtps := p.resetState.powerOn.wdtps.named 0
  wdtClearedAt := 0
  asleep := false
  data := Memory.ofCells (min p.ramBytes 0xF80) (p.resetState.powerOn.data.named [])
  prog := []
  inputs := []
  freeIdx := 0
  cycles := 0

/-- The machine right after power-on reset, every parameter at its default (`State.initial`). -/
def State.reset : State := State.initial Params.full

end Sys2Proof.Machine
end

