-- ==== Sys2Proof/Machine/Flags.lean ====
section
/-! DEFINITION. The adder and every flag computation of the spec (10_state R24 to R32, 42_control R213). -/

namespace Sys2Proof.Machine

/-- An 8-bit result and the five flags that go with it. -/
structure AluResult where
  value : Byte
  flags : Status
deriving DecidableEq, Repr

/-- `Add8(a, b, cin)` (10_state R30): the exact sum, narrowed to 8 bits, and the flags. The formula for OV is the standard
one and not the source's: PRESUMED (assumption log 6). -/
def add8 (a b : Byte) (cin : Bool) : AluResult :=
  let sum := a.toNat + b.toNat + cin.toNat
  let r := BitVec.ofNat 8 sum
  { value := r
    flags :=
      { n := r.msb
        ov := a.msb == b.msb && r.msb != a.msb
        z := r == 0x00#8
        dc := decide (a.toNat % 16 + b.toNat % 16 + cin.toNat > 15)
        c := decide (sum > 255) } }

/-- `Sub8(x, y, bin)` (10_state R31): the complement addition, so that C and DC are "not borrow". -/
def sub8 (x y : Byte) (bin : Bool) : AluResult := add8 x (~~~y) (!bin)

/-- `SetNZ(r)` (10_state R32): N and Z from the result, C, DC and OV as they were. -/
def setNZ (r : Byte) (st : Status) : Status := { st with n := r.msb, z := r == 0x00#8 }

/-- C, N and Z, as the rotates through carry write them (40_byte_oriented R163, R165). -/
def setCNZ (c : Bool) (r : Byte) (st : Status) : Status := { setNZ r st with c := c }

/-- Rotate left by one through the carry `c` (R163). -/
def rotateLeftC (v : Byte) (c : Bool) : Byte := v <<< 1 ||| (BitVec.ofBool c).setWidth 8

/-- Rotate right by one through the carry `c` (R165). -/
def rotateRightC (v : Byte) (c : Bool) : Byte := v >>> 1 ||| (BitVec.ofBool c).setWidth 8 <<< 7

/-- Swap the two halves of a byte (R171). -/
def swapNibbles (v : Byte) : Byte := v.extractLsb' 0 4 ++ v.extractLsb' 4 4

/-- The byte with only bit `b` set. -/
def bitMask (b : BitVec 3) : Byte := 1#8 <<< b

/-- The low digit's adjustment of DAW, exact: 0 to 261 (42_control R213). -/
def dawLow (w : Byte) (dc : Bool) : Nat := w.toNat + if w.toNat % 16 > 9 || dc then 6 else 0

/-- DAW's both adjustments, exact. The high digit is tested with the low digit's carry in it. DESIGN CHOICE of the spec
(92_eei_decisions D24; assumption log 18). -/
def dawHigh (w : Byte) (dc c : Bool) : Nat :=
  let t := dawLow w dc
  t + if t / 16 > 9 || c then 0x60 else 0

/-- The 16-bit unsigned product (40_byte_oriented R161, 43_literal R247). -/
def product (x y : Byte) : BitVec 16 := BitVec.ofNat 16 (x.toNat * y.toNat)

end Sys2Proof.Machine
end

