-- ==== Sys2Proof/Machine/Ops.lean ====
section
/-! DEFINITION. The named operations over the registers, the return stack and program memory; interrupt entry and the
return from it; reset; the environment's moves. -/

namespace Sys2Proof.Machine

/-- What the host calls the outcome of a computation that ends in a state or a model fault. -/
def outcome : Except Fault State → Host.Outcome State Fault Refusal
  | .ok s => .next s
  | .error e => .fault e

/-! ## Program counter and cycles -/

/-- Move the pc on by `n` bytes, modulo 2^21 (10_state R38). -/
def State.advance (s : State) (n : ProgAddr) : State := { s with pc := s.pc + n }

/-- Count instruction cycles (70_reset R330, R331). -/
def State.tick (s : State) (n : Nat) : State := { s with cycles := s.cycles + n }

/-- A program address with bit 0 taken as 0, which is what the pc holds of it (10_state R37). -/
def evenAddr (v : ProgAddr) : ProgAddr := v &&& 0x1FFFFE#21

/-- Load the pc from a stack entry or a vector; bit 0 of the pc is always 0 (10_state R37, R56; assumption log 21). -/
def State.loadPc (s : State) (v : ProgAddr) : State := { s with pc := evenAddr v }

/-- The target of a relative branch from the instruction at the pc: pc + 2 + 2n (42_control R200), `n` sign-extended. -/
def branchTarget (pc n : ProgAddr) : ProgAddr := pc + 2#21 + (n + n)

/-- Go to a relative target or to the next instruction (42_control R200): two cycles when taken, one when not. -/
def branchIf (cond : Bool) (n : BitVec 8) (s : State) : Host.Outcome State Fault Refusal :=
  if cond then .next ({ s with pc := branchTarget s.pc (n.signExtend 21) }.tick 2)
  else .next ((s.advance 2#21).tick 1)

/-! ## Register views -/

/-- A byte with bit `k` replaced. -/
def putBit (v : Byte) (k : BitVec 3) (x : Bool) : Byte := if x then v ||| bitMask k else v &&& ~~~bitMask k

/-- STATUS as a byte: the flags where the layout has them, every other bit zero (10_state R27; assumption log 5, 34). -/
def Status.toByte (l : StatusLayout) (st : Status) : Byte :=
  putBit (putBit (putBit (putBit (putBit 0x00#8 l.c st.c) l.dc st.dc) l.z st.z) l.ov st.ov) l.n st.n

/-- STATUS from a byte; the bits that hold no flag are dropped (10_state R27). -/
def Status.ofByte (l : StatusLayout) (v : Byte) : Status where
  n := v.getLsbD l.n.toNat
  ov := v.getLsbD l.ov.toNat
  z := v.getLsbD l.z.toNat
  dc := v.getLsbD l.dc.toNat
  c := v.getLsbD l.c.toNat

/-- An FSR by its number. -/
def State.fsr (s : State) : FsrNum → BitVec 12
  | .fsr0 => s.fsr0
  | .fsr1 => s.fsr1
  | .fsr2 => s.fsr2

/-- Write an FSR by its number. -/
def State.setFsr (s : State) (n : FsrNum) (v : BitVec 12) : State :=
  match n with
  | .fsr0 => { s with fsr0 := v }
  | .fsr1 => { s with fsr1 := v }
  | .fsr2 => { s with fsr2 := v }

/-- The FSR that LFSR's two-bit field names; the value 3 names none (30_encoding R111). -/
def fsrOfField (f : BitVec 2) : Option FsrNum :=
  match f.toNat with
  | 0 => some .fsr0
  | 1 => some .fsr1
  | 2 => some .fsr2
  | _ => none

/-- A holding register by its number (10_state R42). -/
def Holding.get (h : Holding) (j : BitVec 3) : Byte :=
  match j.toNat with
  | 0 => h.h0
  | 1 => h.h1
  | 2 => h.h2
  | 3 => h.h3
  | 4 => h.h4
  | 5 => h.h5
  | 6 => h.h6
  | _ => h.h7

/-- Write a holding register by its number. -/
def Holding.set (h : Holding) (j : BitVec 3) (v : Byte) : Holding :=
  match j.toNat with
  | 0 => { h with h0 := v }
  | 1 => { h with h1 := v }
  | 2 => { h with h2 := v }
  | 3 => { h with h3 := v }
  | 4 => { h with h4 := v }
  | 5 => { h with h5 := v }
  | 6 => { h with h6 := v }
  | _ => { h with h7 := v }

/-! ## The return-address stack -/

/-- `Push(v)` (10_state R44): the fault StackOverflow when the stack is full. -/
def State.push (s : State) (v : ProgAddr) : Except Fault State :=
  if s.params.stackDepth ≤ s.stack.length then .error (.stackOverflow v)
  else .ok { s with stack := s.stack ++ [v] }

/-- `Pop()` (10_state R45): the entry taken and the state without it; the fault StackUnderflow when there is none. -/
def State.pop (s : State) : Except Fault (ProgAddr × State) :=
  match s.stack.getLast? with
  | none => .error .stackUnderflow
  | some t => .ok (t, { s with stack := s.stack.dropLast })

/-- TOS: the last entry; 0 when the stack is empty (93 G4). -/
def State.tos (s : State) : ProgAddr := s.stack.getLast?.getD 0#21

/-- Write TOS. With the stack empty nothing is written: DESIGN CHOICE, unsafe (assumption log 12). -/
def State.setTos (s : State) (v : ProgAddr) : State :=
  if s.stack.isEmpty then s else { s with stack := s.stack.dropLast ++ [v] }

/-! ## Fast-save registers -/

/-- W, STATUS and BSR into WS, STATUSS and BSRS (42_control R210, 60_exceptions R290). -/
def State.fastSave (s : State) : State := { s with ws := s.w, statuss := s.status, bsrs := s.bsr }

/-- W, STATUS and BSR back from WS, STATUSS and BSRS (42_control R221, R222). -/
def State.fastRestore (s : State) : State := { s with w := s.ws, status := s.statuss, bsr := s.bsrs }

/-! ## Program memory -/

/-- A byte of program memory, absent above `PROG_BYTES` by `UNIMPL_PROG` (20_memory R77, R80). -/
def programByte (s : State) (a : ProgAddr) : Except Fault Byte :=
  if a.toNat < s.params.progBytes then .ok (s.prog.read a.toNat)
  else
    match s.params.unimplProg with
    | .fault => .error (.unimplementedProgram a)
    | .readZero => .ok 0x00#8

/-- `Fetch(a)`: the word at an even address, the less significant byte first (20_memory R78, R80). -/
def fetchWord (s : State) (a : ProgAddr) : Except Fault Word :=
  if a.toNat < s.params.progBytes then .ok (s.prog.read (a + 1#21).toNat ++ s.prog.read a.toNat)
  else
    match s.params.unimplProg with
    | .fault => .error (.unimplementedProgram a)
    | .readZero => .ok 0x0000#16

/-- Fetch and decode the instruction at an address, with its length in words; the checks (1) to (3) of 60_exceptions
R282, in that order. -/
def fetchInstr (s : State) (a : ProgAddr) : Except Fault (Instr × Nat) :=
  match fetchWord s a with
  | .error e => .error e
  | .ok w =>
    match firstWord w with
    | .one i => .ok (i, 1)
    | .reserved => .error (.reservedInstruction a w)
    | .two t =>
      match fetchWord s (a + 2#21) with
      | .error e => .error e
      | .ok w2 =>
        match secondWord t w2 with
        | some i => .ok (i, 2)
        | none => .error (.malformedSecondWord a w w2)

/-- How many words a taken skip passes over: the length of the instruction after the one at the pc, with the checks of
`Skip()` (40_byte_oriented R142). -/
def skipWords (s : State) : Except Fault Nat :=
  match fetchInstr s (s.pc + 2#21) with
  | .ok (_, n) => .ok n
  | .error e => .error e

/-- The address after `n` words that follow the one-word instruction at `pc`. -/
def afterSkip (pc : ProgAddr) (n : Nat) : ProgAddr := pc + 2#21 + BitVec.ofNat 21 (2 * n)

/-! ## Interrupts -/

/-- The level of a request that is taken. -/
inductive Priority where
  | high
  | low
deriving DecidableEq, Repr

/-- A high-priority request: with IPEN = 0 every request is one (60_exceptions R284). -/
def BoundaryInput.asksHigh (p : Params) (i : BoundaryInput) : Bool := i.irqHigh || (i.irqLow && !p.ipen)

/-- A low-priority request. -/
def BoundaryInput.asksLow (p : Params) (i : BoundaryInput) : Bool := i.irqLow && p.ipen

/-- The request that is accepted at a boundary (60_exceptions R284, R286): a high-priority one when GIEH = 1, a
low-priority one when GIEH = 1 and GIEL = 1, the high-priority one of both. PRESUMED (assumption log 13). -/
def accepted (s : State) (i : BoundaryInput) : Option Priority :=
  if s.params.interrupts && s.gieh then
    if i.asksHigh s.params then some .high
    else if i.asksLow s.params && s.giel then some .low
    else none
  else none

/-- The handler nesting after an entry (60_exceptions R290, R292). -/
def IntLevel.enter (l : IntLevel) : Priority → IntLevel
  | .high => if l = .low then .highOverLow else .high
  | .low => .low

/-- Interrupt entry, the one operation that takes an asynchronous transfer (60_exceptions R290): the address of the
instruction that would have run next goes on the return stack, the enable bit of the level is cleared, W, STATUS and BSR
go to the fast-save registers, and the pc to the level's vector. PRESUMED, unsafe (assumption log 13). How long it takes
is a free value (log 22). -/
def interruptEntry (s : State) (p : Priority) : Except Fault State :=
  match s.push s.pc with
  | .error e => .error e
  | .ok s1 =>
    let s2 := s1.fastSave
    let s3 :=
      match p with
      | .high => { s2 with gieh := false }.loadPc s.params.vecHigh
      | .low => { s2 with giel := false }.loadPc s.params.vecLow
    .ok { s3 with
      intLevel := s.intLevel.enter p
      asleep := false
      freeIdx := s.freeIdx + 1
      cycles := s.cycles + Config.freeCycles s.freeIdx }

/-- The handler nesting after a return (60_exceptions R292). -/
def IntLevel.leave : IntLevel → IntLevel
  | .highOverLow => .low
  | _ => .none

/-- What a return from interrupt does to the enable bits and the nesting (42_control R221): GIEL is set when a
low-priority handler is running, GIEH otherwise. DESIGN CHOICE of the spec (92 D11; assumption log 15). -/
def State.interruptReturn (s : State) : State :=
  if s.intLevel = .low then { s with giel := true, intLevel := s.intLevel.leave }
  else { s with gieh := true, intLevel := s.intLevel.leave }

/-! ## Reset -/

/-- Five flags from the low bits of a free value. -/
def freeStatus (x : Nat) : Status := ⟨x.testBit 4, x.testBit 3, x.testBit 2, x.testBit 1, x.testBit 0⟩

/-- A byte from a free value. -/
def freeByte (x : Nat) : Byte := BitVec.ofNat 8 x

/-- Eight holding registers from a source of free values: places 0 to 7. -/
def freeHolding (x : Nat → Nat) : Holding :=
  ⟨freeByte (x 0), freeByte (x 1), freeByte (x 2), freeByte (x 3),
   freeByte (x 4), freeByte (x 5), freeByte (x 6), freeByte (x 7)⟩

/-- An FSR after a reset, its two parts by entries of their own. -/
def resetFsr (h : ResetValue (BitVec 4)) (l : ResetValue Byte) (old : BitVec 12) (freeH freeL : Nat) : BitVec 12 :=
  h.pick (old.extractLsb' 8 4) (BitVec.ofNat 4 freeH) ++ l.pick (old.extractLsb' 0 8) (freeByte freeL)

/-- Data memory after a reset, of a part with `n` bytes of it; byte `a` is the free value of place 32 + a. -/
def resetData (r : ResetValue (List (Nat × Byte))) (n : Nat) (old : Memory) (x : Nat → Nat) : Memory :=
  match r with
  | .value cells => Memory.ofCells n cells
  | .unknown => Memory.tabulate n fun a => freeByte (x (32 + a))
  | .unchanged => old

/-- Every element that `RESET_STATE` gives a value takes it, `x` being the source of the values that it leaves unknown
(70_reset R321, R322). -/
def resetElements (row : ResetRow) (x : Nat → Nat) (s : State) : State :=
  { s with
    w := row.w.pick s.w (freeByte (x 8))
    status := row.status.pick s.status (freeStatus (x 17))
    bsr := row.bsr.pick s.bsr (BitVec.ofNat 4 (x 18))
    fsr0 := resetFsr row.fsr0h row.fsr0l s.fsr0 (x 19) (x 9)
    fsr1 := resetFsr row.fsr1h row.fsr1l s.fsr1 (x 20) (x 10)
    fsr2 := resetFsr row.fsr2h row.fsr2l s.fsr2 (x 21) (x 11)
    prodh := row.prodh.pick s.prodh (freeByte (x 12))
    prodl := row.prodl.pick s.prodl (freeByte (x 13))
    tblptr := row.tblptr.pick s.tblptr (BitVec.ofNat 21 (x 22))
    tablat := row.tablat.pick s.tablat (freeByte (x 23))
    pclath := row.pclath.pick s.pclath (freeByte (x 24))
    pclatu := row.pclatu.pick s.pclatu (BitVec.ofNat 5 (x 25))
    gieh := row.gieh.pick s.gieh ((x 26).testBit 0)
    giel := row.giel.pick s.giel ((x 27).testBit 0)
    toBit := row.toBit.pick s.toBit ((x 28).testBit 0)
    pdBit := row.pdBit.pick s.pdBit ((x 29).testBit 0)
    ws := row.ws.pick s.ws (freeByte (x 14))
    statuss := row.statuss.pick s.statuss (freeStatus (x 16))
    bsrs := row.bsrs.pick s.bsrs (BitVec.ofNat 4 (x 15))
    hold := row.hold.pick s.hold (freeHolding x)
    wdt := row.wdt.pick s.wdt (x 30)
    wdtps := row.wdtps.pick s.wdtps (x 31)
    wdtClearedAt := if row.wdt = .value 0 then s.cycles else s.wdtClearedAt
    data := resetData row.data (min s.params.ramBytes 0xF80) s.data x }

/-- The column of `RESET_STATE` that a reset takes (70_reset R320 to R322): the software reset that of MCLR, MCLR in sleep a
column of its own. -/
def resetRow (kind : ResetKind) (s : State) : ResetRow :=
  match kind with
  | .powerOn => s.params.resetState.powerOn
  | .mclr => if s.asleep then s.params.resetState.mclrAsleep else s.params.resetState.mclr
  | .software => s.params.resetState.mclr
  | .wdt => s.params.resetState.wdt

/-- `DoReset(kind)` (70_reset R321): the elements by `RESET_STATE` (assumption log 33), the unknown ones free values numbered
by `freeIdx` (log 2), and what R321 itself fixes. -/
def doReset (kind : ResetKind) (s : State) : State :=
  { resetElements (resetRow kind s) (Config.freeAtReset s.freeIdx) s with
    pc := evenAddr s.params.resetVector
    stack := []
    asleep := false
    intLevel := .none
    freeIdx := s.freeIdx + 1 }

/-! ## The environment -/

/-- The watchdog counters as the environment has counted them, with the watchdog enabled (60_exceptions R296). -/
def countWdt (s : State) (i : BoundaryInput) : State :=
  match i.wdtCount with
  | some (t, p) => if s.params.wdtEnabled then { s with wdt := t, wdtps := p } else s
  | none => s

/-- Cycles of an event whose length the spec does not state: a free value (70_reset R331; assumption log 22). -/
def State.freeTick (s : State) : State :=
  { s with freeIdx := s.freeIdx + 1, cycles := s.cycles + Config.freeCycles s.freeIdx }

/-- The wake-up by a watchdog time-out: TO is cleared, execution goes on at the pc (60_exceptions R297). -/
def watchdogWake (s : State) : State := { s with toBit := false, asleep := false }.freeTick

/-- The wake-up by a request that is not accepted: execution goes on at the pc (60_exceptions R297). -/
def requestWake (s : State) : State := { s with asleep := false }.freeTick

/-- The reset that an input asks for. -/
def ExternalReset.kind : ExternalReset → ResetKind
  | .powerOn => .powerOn
  | .mclr => .mclr

/-- A watchdog time-out is heard: the watchdog is enabled, and an awake core has run for at least `WDT_PERIOD` since the
counter was last cleared. A sleeping core runs no cycles, so any time may have passed for it (60_exceptions R296;
assumption log 17). -/
def timeOutHeard (s : State) (i : BoundaryInput) : Bool :=
  i.wdtTimeout && s.params.wdtEnabled && (s.asleep || decide (s.params.wdtPeriod ≤ s.cycles - s.wdtClearedAt))

/-- What the environment's input does at an instruction boundary, when it does anything: a reset before a watchdog
time-out before an interrupt (60_exceptions R286, R296, R297; 70_reset R320; that an outside reset
comes before a time-out, and a sleeping core's time-out before an interrupt, is a DESIGN CHOICE, assumption log 13). None when the core is left to itself. -/
def boundaryEvent (s : State) (i : BoundaryInput) : Option (Except Fault State) :=
  match i.reset with
  | some r => some (.ok (doReset r.kind s).freeTick)
  | none =>
    if timeOutHeard s i then
      some (.ok (if s.asleep then watchdogWake s else (doReset .wdt s).freeTick))
    else
      match accepted s i with
      | some p => some (interruptEntry s p)
      | none =>
        if s.asleep && s.params.interrupts && (i.irqHigh || i.irqLow) then some (.ok (requestWake s)) else none

end Sys2Proof.Machine
end

