-- ==== Sys2Proof/Machine/Operands.lean ====
section
/-! DEFINITION. Every operand form: effective addresses, data reads and writes through `SFR_MAP`, indirect addressing,
and the shapes of instruction that use a file register. In these shapes the pc is moved past the instruction first, so
that a read of PCL finds the address of the next instruction in it and a write of PCL is the last word on it. -/

namespace Sys2Proof.Machine

/-- `EA(f, a)` (20_memory R73). -/
def effectiveAddr (s : State) (a : Access) (f : BitVec 8) : DataAddr :=
  match a with
  | .banked => s.bsr ++ f
  | .access => if f.toNat < 0x80 then 0x0#4 ++ f else 0xF#4 ++ f

/-- What stands at a data address. -/
inductive Cell where
  /-- a byte of general-purpose memory -/
  | ram (i : DataAddr)
  /-- a core register -/
  | sfr (r : Sfr)
  /-- nothing: reads give 0, writes are discarded -/
  | void
deriving DecidableEq, Repr

/-- What stands at a data address, or the fault of an access to it (20_memory R74 to R76). -/
def cellAt (p : Params) (i : DataAddr) : Except Fault Cell :=
  if i.toNat < 0xF80 then
    if i.toNat < p.ramBytes then .ok (.ram i)
    else
      match p.unimplData with
      | .fault => .error (.unimplementedData i)
      | .readZero => .ok .void
  else
    match p.sfrAt i with
    | none => .error (.unmodelledSFR i)
    | some r => if p.models r then .ok (.sfr r) else .error (.unmodelledSFR i)

/-- Where an operand lies, and the step of an FSR that is due once the operand has been used. -/
structure Loc where
  cell : Cell
  post : Option (FsrNum × BitVec 12)
deriving DecidableEq, Repr

/-- The data address of an indirect operand, the state with a pre-increment made, and the step due afterwards
(93_implementation_defined G3). PRESUMED (assumption log 9). -/
def pointer (s : State) (m : IndMode) (n : FsrNum) : DataAddr × State × Option (FsrNum × BitVec 12) :=
  match m with
  | .indf => (s.fsr n, s, none)
  | .postinc => (s.fsr n, s, some (n, 0x001#12))
  | .postdec => (s.fsr n, s, some (n, 0xFFF#12))
  | .preinc => (s.fsr n + 1#12, s.setFsr n (s.fsr n + 1#12), none)
  | .plusw => (s.fsr n + s.w.signExtend 12, s, none)

/-- Where the operand at a data address lies. An operand is located once: its read and its write-back use the same place
and step the pointer once (assumption log 9). An indirect access that arrives at one of the indirect registers itself
reads 0 and writes nothing (93 G3). -/
def locate (s : State) (i : DataAddr) : Except Fault (Loc × State) :=
  match cellAt s.params i with
  | .error e => .error e
  | .ok (.sfr (.ind m n)) =>
    let q := pointer s m n
    match cellAt s.params q.1 with
    | .error e => .error e
    | .ok (.sfr (.ind _ _)) => .ok (⟨.void, q.2.2⟩, q.2.1)
    | .ok c => .ok (⟨c, q.2.2⟩, q.2.1)
  | .ok c => .ok (⟨c, none⟩, s)

/-- The step of the FSR that is due after the operand's use. -/
def Loc.settle (l : Loc) (s : State) : State :=
  match l.post with
  | none => s
  | some (n, d) => s.setFsr n (s.fsr n + d)

/-- Read a core register as a byte (10_state R21, R27, R34 to R36, R39 to R41, R48, R54). Reading PCL copies the upper
bytes of the pc to the latches (93 G4; assumption log 10); STATUS and INTCON are laid out as
the parameters say, and the bits of INTCON that hold no enable are a free value (log 14, 34). -/
def readSfr (s : State) : Sfr → Byte × State
  | .tosu => ((s.tos.extractLsb' 16 5).setWidth 8, s)
  | .tosh => (s.tos.extractLsb' 8 8, s)
  | .tosl => (s.tos.extractLsb' 0 8, s)
  | .pclatu => (s.pclatu.setWidth 8, s)
  | .pclath => (s.pclath, s)
  | .pcl => (s.pc.extractLsb' 0 8, { s with pclath := s.pc.extractLsb' 8 8, pclatu := s.pc.extractLsb' 16 5 })
  | .tblptru => ((s.tblptr.extractLsb' 16 5).setWidth 8, s)
  | .tblptrh => (s.tblptr.extractLsb' 8 8, s)
  | .tblptrl => (s.tblptr.extractLsb' 0 8, s)
  | .tablat => (s.tablat, s)
  | .prodh => (s.prodh, s)
  | .prodl => (s.prodl, s)
  | .intcon =>
    let l := s.params.intconLayout
    (putBit (putBit (Config.freeIntcon s.freeIdx) l.giel s.giel) l.gieh s.gieh, { s with freeIdx := s.freeIdx + 1 })
  | .wreg => (s.w, s)
  | .bsr => (s.bsr.setWidth 8, s)
  | .status => (s.status.toByte s.params.statusLayout, s)
  | .fsrh n => (((s.fsr n).extractLsb' 8 4).setWidth 8, s)
  | .fsrl n => ((s.fsr n).extractLsb' 0 8, s)
  | .ind _ _ => (0x00#8, s)

/-- Write a byte to a core register, cut to the register's width (10_state R27, R34, R35, R39; 20_memory R75). A write to
PCL loads the pc from the latches and the byte, bit 0 cleared (93 G4; assumption log 10). -/
def writeSfr (s : State) (r : Sfr) (v : Byte) : State :=
  match r with
  | .tosu => s.setTos (v.setWidth 5 ++ s.tos.extractLsb' 0 16)
  | .tosh => s.setTos (s.tos.extractLsb' 16 5 ++ (v ++ s.tos.extractLsb' 0 8))
  | .tosl => s.setTos (s.tos.extractLsb' 8 13 ++ v)
  | .pclatu => { s with pclatu := v.setWidth 5 }
  | .pclath => { s with pclath := v }
  | .pcl => { s with pc := s.pclatu ++ (s.pclath ++ (v &&& 0xFE#8)) }
  | .tblptru => { s with tblptr := v.setWidth 5 ++ s.tblptr.extractLsb' 0 16 }
  | .tblptrh => { s with tblptr := s.tblptr.extractLsb' 16 5 ++ (v ++ s.tblptr.extractLsb' 0 8) }
  | .tblptrl => { s with tblptr := s.tblptr.extractLsb' 8 13 ++ v }
  | .tablat => { s with tablat := v }
  | .prodh => { s with prodh := v }
  | .prodl => { s with prodl := v }
  | .intcon =>
    { s with gieh := v.getLsbD s.params.intconLayout.gieh.toNat, giel := v.getLsbD s.params.intconLayout.giel.toNat }
  | .wreg => { s with w := v }
  | .bsr => { s with bsr := v.setWidth 4 }
  | .status => { s with status := Status.ofByte s.params.statusLayout v }
  | .fsrh n => s.setFsr n (v.setWidth 4 ++ (s.fsr n).extractLsb' 0 8)
  | .fsrl n => s.setFsr n ((s.fsr n).extractLsb' 8 4 ++ v)
  | .ind _ _ => s

/-- `DataRead` at a place (20_memory R74): the byte, and the state after the read's effect. -/
def readCell (s : State) : Cell → Byte × State
  | .ram i => (s.data.read i.toNat, s)
  | .sfr r => readSfr s r
  | .void => (0x00#8, s)

/-- `DataWrite` at a place (20_memory R75). -/
def writeCell (s : State) (c : Cell) (v : Byte) : State :=
  match c with
  | .ram i => { s with data := s.data.write i.toNat v }
  | .sfr r => writeSfr s r v
  | .void => s

/-- `Dest(d, ea, r)` (40_byte_oriented R141). -/
def writeDest (s : State) (d : Dest) (c : Cell) (r : Byte) : State :=
  match d with
  | .w => { s with w := r }
  | .f => writeCell s c r

/-- Whether a result that goes to `d` is written to PCL. -/
def writesPcl (d : Dest) (c : Cell) : Bool := d == .f && c == .sfr .pcl

/-- Cycles of a one-cycle instruction that writes a file register: two when it writes PCL (93 G4, 70_reset R337). -/
def fileCycles (d : Dest) (c : Cell) : Nat := if writesPcl d c then 2 else 1

/-! ## Shapes -/

/-- Locate the operand of the one-word instruction at the pc and read it: place, byte, and the state with the pc moved on. -/
def fetchOperand (s : State) (a : Access) (f : BitVec 8) : Except Fault (Loc × Byte × State) :=
  match locate (s.advance 2#21) (effectiveAddr s a f) with
  | .error e => .error e
  | .ok (l, s1) =>
    let q := readCell s1 l.cell
    .ok (l, q.1, q.2)

/-- Read `f`, compute a result and the flags, write the result to `d` (40_byte_oriented R140, R141). The flags that `op`
gives are set after the result is written, so that they win over a byte written to STATUS (10_state R27; assumption
log 28). -/
def modifyFile (d : Dest) (a : Access) (f : BitVec 8) (op : Byte → Byte × (Status → Status)) (s : State) :
    Host.Outcome State Fault Refusal :=
  match fetchOperand s a f with
  | .error e => .fault e
  | .ok (l, v, s1) =>
    let s2 := writeDest s1 d l.cell (op v).1
    let s3 := { s2 with status := (op v).2 s2.status }
    .next ((l.settle s3).tick (fileCycles d l.cell))

/-- Write a byte to `f` without reading it, then the flags (40_byte_oriented R140: CLRF, SETF, MOVWF). -/
def storeFile (a : Access) (f : BitVec 8) (v : Byte) (flags : Status → Status) (s : State) :
    Host.Outcome State Fault Refusal :=
  match locate (s.advance 2#21) (effectiveAddr s a f) with
  | .error e => .fault e
  | .ok (l, s1) =>
    let s2 := writeCell s1 l.cell v
    let s3 := { s2 with status := flags s2.status }
    .next ((l.settle s3).tick (fileCycles .f l.cell))

/-- Read `f` and change registers by it (40_byte_oriented R161: MULWF). -/
def useFile (a : Access) (f : BitVec 8) (k : Byte → State → State) (s : State) : Host.Outcome State Fault Refusal :=
  match fetchOperand s a f with
  | .error e => .fault e
  | .ok (l, v, s1) => .next ((k v (l.settle s1)).tick 1)

/-- Read `f`, skip the next instruction if the byte meets the condition (40_byte_oriented R142). -/
def testFile (a : Access) (f : BitVec 8) (cond : Byte → Bool) (s : State) : Host.Outcome State Fault Refusal :=
  match fetchOperand s a f with
  | .error e => .fault e
  | .ok (l, v, s1) =>
    if cond v then
      match skipWords s with
      | .error e => .fault e
      | .ok n => .next ({ l.settle s1 with pc := afterSkip s.pc n }.tick (1 + n))
    else .next ((l.settle s1).tick 1)

/-- The end of an instruction that has written its result and takes a skip over `n` words: past them, after 1 + n cycles.
When the result went to PCL, the spec does not say which of the two stands, so the address is free; the cycles are two over
one word, as the skip and the write of PCL each say (70_reset R331, R337), and over two words two or three, a free choice
between what they say (assumption log 11, 22). -/
def skipOver (d : Dest) (c : Cell) (pc : ProgAddr) (n : Nat) (s : State) : State :=
  if writesPcl d c then
    { s with pc := Config.freePcWord s.freeIdx ++ 0#1, freeIdx := s.freeIdx + 1 }.tick (2 + Config.freeCycles s.freeIdx % n)
  else { s with pc := afterSkip pc n }.tick (1 + n)

/-- Read `f`, write a result to `d`, skip the next instruction if the result meets the condition. No flag is written. The
checks of the skip come before the write (40_byte_oriented R142, R152). -/
def countFile (d : Dest) (a : Access) (f : BitVec 8) (op : Byte → Byte) (cond : Byte → Bool) (s : State) :
    Host.Outcome State Fault Refusal :=
  match fetchOperand s a f with
  | .error e => .fault e
  | .ok (l, v, s1) =>
    let s2 := l.settle (writeDest s1 d l.cell (op v))
    if cond (op v) then
      match skipWords s with
      | .error e => .fault e
      | .ok n => .next (skipOver d l.cell s.pc n s2)
    else .next (s2.tick (fileCycles d l.cell))

end Sys2Proof.Machine
end

