-- ==== Sys2Proof/Machine/BitOriented.lean ====
section
/-! DEFINITION. The bit-oriented file register instructions (41_bit_oriented R190 to R195). -/

namespace Sys2Proof.Machine

/-- BCF: clear bit b of f, the whole byte read and written back, no flag (41_bit_oriented R191). -/
def execBcf (b : BitVec 3) (a : Access) (f : BitVec 8) (s : State) : Host.Outcome State Fault Refusal :=
  modifyFile .f a f (fun v => (v &&& ~~~bitMask b, id)) s

/-- BSF: set bit b of f, the whole byte read and written back, no flag (41_bit_oriented R192). -/
def execBsf (b : BitVec 3) (a : Access) (f : BitVec 8) (s : State) : Host.Outcome State Fault Refusal :=
  modifyFile .f a f (fun v => (v ||| bitMask b, id)) s

/-- BTFSC: skip if bit b of f is 0 (41_bit_oriented R193). -/
def execBtfsc (b : BitVec 3) (a : Access) (f : BitVec 8) (s : State) : Host.Outcome State Fault Refusal :=
  testFile a f (fun v => !v.getLsbD b.toNat) s

/-- BTFSS: skip if bit b of f is 1 (41_bit_oriented R194). -/
def execBtfss (b : BitVec 3) (a : Access) (f : BitVec 8) (s : State) : Host.Outcome State Fault Refusal :=
  testFile a f (fun v => v.getLsbD b.toNat) s

/-- BTG: toggle bit b of f, the whole byte read and written back, no flag (41_bit_oriented R195). -/
def execBtg (b : BitVec 3) (a : Access) (f : BitVec 8) (s : State) : Host.Outcome State Fault Refusal :=
  modifyFile .f a f (fun v => (v ^^^ bitMask b, id)) s


end Sys2Proof.Machine
end

