-- ==== Sys2Proof/Machine/ByteOriented.lean ====
section
/-! DEFINITION. The byte-oriented file register instructions (40_byte_oriented R143 to R173). -/

namespace Sys2Proof.Machine

/-- ADDWF: WREG + f, all five flags (40_byte_oriented R143). -/
def execAddwf (d : Dest) (a : Access) (f : BitVec 8) (s : State) : Host.Outcome State Fault Refusal :=
  modifyFile d a f (fun v => let r := add8 s.w v false; (r.value, fun _ => r.flags)) s

/-- ADDWFC: WREG + f + C, all five flags; the carry is the one before the instruction (40_byte_oriented R144). -/
def execAddwfc (d : Dest) (a : Access) (f : BitVec 8) (s : State) : Host.Outcome State Fault Refusal :=
  modifyFile d a f (fun v => let r := add8 s.w v s.status.c; (r.value, fun _ => r.flags)) s

/-- ANDWF: WREG and f, flags N and Z (40_byte_oriented R145). -/
def execAndwf (d : Dest) (a : Access) (f : BitVec 8) (s : State) : Host.Outcome State Fault Refusal :=
  modifyFile d a f (fun v => let r := s.w &&& v; (r, setNZ r)) s

/-- CLRF: f := 0, Z := 1, no other flag (40_byte_oriented R146). -/
def execClrf (a : Access) (f : BitVec 8) (s : State) : Host.Outcome State Fault Refusal :=
  storeFile a f 0x00#8 (fun st => { st with z := true }) s

/-- COMF: not f, flags N and Z (40_byte_oriented R147). -/
def execComf (d : Dest) (a : Access) (f : BitVec 8) (s : State) : Host.Outcome State Fault Refusal :=
  modifyFile d a f (fun v => let r := ~~~v; (r, setNZ r)) s

/-- CPFSEQ: skip if f = WREG (40_byte_oriented R148). -/
def execCpfseq (a : Access) (f : BitVec 8) (s : State) : Host.Outcome State Fault Refusal :=
  testFile a f (fun v => v == s.w) s

/-- CPFSGT: skip if f > WREG, unsigned (40_byte_oriented R149). -/
def execCpfsgt (a : Access) (f : BitVec 8) (s : State) : Host.Outcome State Fault Refusal :=
  testFile a f (fun v => decide (s.w.toNat < v.toNat)) s

/-- CPFSLT: skip if f < WREG, unsigned (40_byte_oriented R150). -/
def execCpfslt (a : Access) (f : BitVec 8) (s : State) : Host.Outcome State Fault Refusal :=
  testFile a f (fun v => decide (v.toNat < s.w.toNat)) s

/-- DECF: f - 1, all five flags (40_byte_oriented R151). -/
def execDecf (d : Dest) (a : Access) (f : BitVec 8) (s : State) : Host.Outcome State Fault Refusal :=
  modifyFile d a f (fun v => let r := sub8 v 0x01#8 false; (r.value, fun _ => r.flags)) s

/-- DECFSZ: f - 1, skip if the result is 0, no flag (40_byte_oriented R152). -/
def execDecfsz (d : Dest) (a : Access) (f : BitVec 8) (s : State) : Host.Outcome State Fault Refusal :=
  countFile d a f (fun v => v - 0x01#8) (fun r => r == 0x00#8) s

/-- DECFSNZ: f - 1, skip if the result is not 0, no flag (40_byte_oriented R153). -/
def execDecfsnz (d : Dest) (a : Access) (f : BitVec 8) (s : State) : Host.Outcome State Fault Refusal :=
  countFile d a f (fun v => v - 0x01#8) (fun r => r != 0x00#8) s

/-- INCF: f + 1, all five flags (40_byte_oriented R154). -/
def execIncf (d : Dest) (a : Access) (f : BitVec 8) (s : State) : Host.Outcome State Fault Refusal :=
  modifyFile d a f (fun v => let r := add8 v 0x01#8 false; (r.value, fun _ => r.flags)) s

/-- INCFSZ: f + 1, skip if the result is 0, no flag (40_byte_oriented R155). -/
def execIncfsz (d : Dest) (a : Access) (f : BitVec 8) (s : State) : Host.Outcome State Fault Refusal :=
  countFile d a f (fun v => v + 0x01#8) (fun r => r == 0x00#8) s

/-- INFSNZ: f + 1, skip if the result is not 0, no flag (40_byte_oriented R156). -/
def execInfsnz (d : Dest) (a : Access) (f : BitVec 8) (s : State) : Host.Outcome State Fault Refusal :=
  countFile d a f (fun v => v + 0x01#8) (fun r => r != 0x00#8) s

/-- IORWF: WREG or f, flags N and Z (40_byte_oriented R157). -/
def execIorwf (d : Dest) (a : Access) (f : BitVec 8) (s : State) : Host.Outcome State Fault Refusal :=
  modifyFile d a f (fun v => let r := s.w ||| v; (r, setNZ r)) s

/-- MOVF: f, flags N and Z; with d = 1 the byte is written back (40_byte_oriented R158). -/
def execMovf (d : Dest) (a : Access) (f : BitVec 8) (s : State) : Host.Outcome State Fault Refusal :=
  modifyFile d a f (fun v => let r := v; (r, setNZ r)) s

/-- MOVFF's destination is the `SFR_MAP` address of PCL or of a byte of TOS (40_byte_oriented R159), whether or not the
model has that register. -/
def movffForbidden (p : Params) (fd : DataAddr) : Bool :=
  if fd.toNat < 0xF80 then false
  else
    match p.sfrAt fd with
    | some .pcl => true
    | some .tosu => true
    | some .tosh => true
    | some .tosl => true
    | _ => false

/-- MOVFF: the byte at fs to fd, both full data addresses; the checks in the order of 60_exceptions R282, the source read
and its pointer stepped before the destination is located (40_byte_oriented R159; assumption log 9). Two cycles
(90_conflicts C14). -/
def execMovff (fs fd : BitVec 12) (s : State) : Host.Outcome State Fault Refusal :=
  if movffForbidden s.params fd then .fault (.forbiddenMovffDest fd)
  else
    match locate (s.advance 4#21) fs with
    | .error e => .fault e
    | .ok (l, s1) =>
      let q := readCell s1 l.cell
      match locate (l.settle q.2) fd with
      | .error e => .fault e
      | .ok (m, s2) => .next ((m.settle (writeCell s2 m.cell q.1)).tick 2)

/-- MOVWF: f := WREG, no flag (40_byte_oriented R160). -/
def execMovwf (a : Access) (f : BitVec 8) (s : State) : Host.Outcome State Fault Refusal :=
  storeFile a f s.w id s

/-- PRODH:PRODL := a 16-bit product (10_state R36). -/
def State.setProd (s : State) (p : BitVec 16) : State :=
  { s with prodh := p.extractLsb' 8 8, prodl := p.extractLsb' 0 8 }

/-- MULWF: PRODH:PRODL := WREG * f, unsigned, no flag (40_byte_oriented R161). -/
def execMulwf (a : Access) (f : BitVec 8) (s : State) : Host.Outcome State Fault Refusal :=
  useFile a f (fun v t => t.setProd (product s.w v)) s

/-- NEGF: f := not f + 1, all five flags (40_byte_oriented R162). -/
def execNegf (a : Access) (f : BitVec 8) (s : State) : Host.Outcome State Fault Refusal :=
  modifyFile .f a f (fun v => let r := add8 (~~~v) 0x01#8 false; (r.value, fun _ => r.flags)) s

/-- RLCF: rotate C:f left by one, flags C, N, Z (40_byte_oriented R163). -/
def execRlcf (d : Dest) (a : Access) (f : BitVec 8) (s : State) : Host.Outcome State Fault Refusal :=
  modifyFile d a f (fun v => let r := rotateLeftC v s.status.c; (r, setCNZ v.msb r)) s

/-- RLNCF: rotate f left by one, flags N and Z (40_byte_oriented R164). -/
def execRlncf (d : Dest) (a : Access) (f : BitVec 8) (s : State) : Host.Outcome State Fault Refusal :=
  modifyFile d a f (fun v => let r := rotateLeftC v v.msb; (r, setNZ r)) s

/-- RRCF: rotate C:f right by one, flags C, N, Z (40_byte_oriented R165). -/
def execRrcf (d : Dest) (a : Access) (f : BitVec 8) (s : State) : Host.Outcome State Fault Refusal :=
  modifyFile d a f (fun v => let r := rotateRightC v s.status.c; (r, setCNZ (v.getLsbD 0) r)) s

/-- RRNCF: rotate f right by one, flags N and Z (40_byte_oriented R166). -/
def execRrncf (d : Dest) (a : Access) (f : BitVec 8) (s : State) : Host.Outcome State Fault Refusal :=
  modifyFile d a f (fun v => let r := rotateRightC v (v.getLsbD 0); (r, setNZ r)) s

/-- SETF: f := 0xFF, no flag (40_byte_oriented R167). -/
def execSetf (a : Access) (f : BitVec 8) (s : State) : Host.Outcome State Fault Refusal :=
  storeFile a f 0xFF#8 id s

/-- SUBFWB: WREG - f - not C, all five flags (40_byte_oriented R168). -/
def execSubfwb (d : Dest) (a : Access) (f : BitVec 8) (s : State) : Host.Outcome State Fault Refusal :=
  modifyFile d a f (fun v => let r := sub8 s.w v (!s.status.c); (r.value, fun _ => r.flags)) s

/-- SUBWF: f - WREG, all five flags (40_byte_oriented R169). -/
def execSubwf (d : Dest) (a : Access) (f : BitVec 8) (s : State) : Host.Outcome State Fault Refusal :=
  modifyFile d a f (fun v => let r := sub8 v s.w false; (r.value, fun _ => r.flags)) s

/-- SUBWFB: f - WREG - not C, all five flags (40_byte_oriented R170). -/
def execSubwfb (d : Dest) (a : Access) (f : BitVec 8) (s : State) : Host.Outcome State Fault Refusal :=
  modifyFile d a f (fun v => let r := sub8 v s.w (!s.status.c); (r.value, fun _ => r.flags)) s

/-- SWAPF: the nibbles of f exchanged, no flag (40_byte_oriented R171). -/
def execSwapf (d : Dest) (a : Access) (f : BitVec 8) (s : State) : Host.Outcome State Fault Refusal :=
  modifyFile d a f (fun v => (swapNibbles v, id)) s

/-- TSTFSZ: skip if f = 0 (40_byte_oriented R172). -/
def execTstfsz (a : Access) (f : BitVec 8) (s : State) : Host.Outcome State Fault Refusal :=
  testFile a f (fun v => v == 0x00#8) s

/-- XORWF: WREG xor f, flags N and Z (40_byte_oriented R173). -/
def execXorwf (d : Dest) (a : Access) (f : BitVec 8) (s : State) : Host.Outcome State Fault Refusal :=
  modifyFile d a f (fun v => let r := s.w ^^^ v; (r, setNZ r)) s


end Sys2Proof.Machine
end

