-- ==== Sys2Proof/Machine/Control.lean ====
section
/-! DEFINITION. The control instructions (42_control R200 to R223). -/

namespace Sys2Proof.Machine

/-- BC: branch if C = 1 (42_control R201). -/
def execBc (n : BitVec 8) (s : State) : Host.Outcome State Fault Refusal := branchIf s.status.c n s

/-- BN: branch if N = 1 (42_control R202). -/
def execBn (n : BitVec 8) (s : State) : Host.Outcome State Fault Refusal := branchIf s.status.n n s

/-- BNC: branch if C = 0 (42_control R203). -/
def execBnc (n : BitVec 8) (s : State) : Host.Outcome State Fault Refusal := branchIf (!s.status.c) n s

/-- BNN: branch if N = 0 (42_control R204). -/
def execBnn (n : BitVec 8) (s : State) : Host.Outcome State Fault Refusal := branchIf (!s.status.n) n s

/-- BNOV: branch if OV = 0 (42_control R205). -/
def execBnov (n : BitVec 8) (s : State) : Host.Outcome State Fault Refusal := branchIf (!s.status.ov) n s

/-- BNZ: branch if Z = 0 (42_control R206). -/
def execBnz (n : BitVec 8) (s : State) : Host.Outcome State Fault Refusal := branchIf (!s.status.z) n s

/-- BOV: branch if OV = 1 (42_control R207). -/
def execBov (n : BitVec 8) (s : State) : Host.Outcome State Fault Refusal := branchIf s.status.ov n s

/-- BZ: branch if Z = 1 (42_control R208). -/
def execBz (n : BitVec 8) (s : State) : Host.Outcome State Fault Refusal := branchIf s.status.z n s

/-- BRA: branch always (42_control R209). -/
def execBra (n : BitVec 11) (s : State) : Host.Outcome State Fault Refusal :=
  .next ({ s with pc := branchTarget s.pc (n.signExtend 21) }.tick 2)

/-- CALL: push pc + 4; with s = 1 save W, STATUS and BSR; go to 2k (42_control R210). -/
def execCall (fast : Bool) (k : BitVec 20) (s : State) : Host.Outcome State Fault Refusal :=
  match s.push (s.pc + 4#21) with
  | .error e => .fault e
  | .ok s1 => .next ({ (if fast then s1.fastSave else s1) with pc := k ++ 0#1 }.tick 2)

/-- CLRWDT: the watchdog counter and its prescaler to 0, TO and PD to 1 (42_control R211); from now on
`WDT_PERIOD` counts anew (60_exceptions R296). -/
def execClrwdt (s : State) : Host.Outcome State Fault Refusal :=
  .next (({ s with
      wdt := 0, wdtps := 0, wdtClearedAt := s.cycles, toBit := true, pdBit := true }.advance 2#21).tick 1)

/-- GOTO: go to 2k (42_control R212). -/
def execGoto (k : BitVec 20) (s : State) : Host.Outcome State Fault Refusal := .next ({ s with pc := k ++ 0#1 }.tick 2)

/-- DAW: decimal adjust WREG; of the flags only C, which is never cleared (42_control R213; assumption log 18). -/
def execDaw (s : State) : Host.Outcome State Fault Refusal :=
  let u := dawHigh s.w s.status.dc s.status.c
  .next (({ s with
      w := BitVec.ofNat 8 u
      status := { s.status with c := s.status.c || decide (u > 255) } }.advance 2#21).tick 1)

/-- NOP, the encoding 0x0000 (42_control R214). -/
def execNop (s : State) : Host.Outcome State Fault Refusal := .next ((s.advance 2#21).tick 1)

/-- NOP, the encodings 0xFxxx; the twelve low bits are ignored (42_control R215). -/
def execNopF (_x : BitVec 12) (s : State) : Host.Outcome State Fault Refusal := .next ((s.advance 2#21).tick 1)

/-- POP: take the top of the return stack away (42_control R216). -/
def execPop (s : State) : Host.Outcome State Fault Refusal :=
  match s.pop with
  | .error e => .fault e
  | .ok (_, s1) => .next ((s1.advance 2#21).tick 1)

/-- PUSH: push pc + 2 (42_control R217). -/
def execPush (s : State) : Host.Outcome State Fault Refusal :=
  match s.push (s.pc + 2#21) with
  | .error e => .fault e
  | .ok s1 => .next ((s1.advance 2#21).tick 1)

/-- RCALL: push pc + 2, go to pc + 2 + 2n (42_control R218). -/
def execRcall (n : BitVec 11) (s : State) : Host.Outcome State Fault Refusal :=
  match s.push (s.pc + 2#21) with
  | .error e => .fault e
  | .ok s1 => .next ({ s1 with pc := branchTarget s.pc (n.signExtend 21) }.tick 2)

/-- RESET: the software reset (42_control R219, 70_reset R321). -/
def execReset (s : State) : Host.Outcome State Fault Refusal := .next ((doReset .software s).tick 1)

/-- RETLW: pop the pc, k to WREG (42_control R220). -/
def execRetlw (k : BitVec 8) (s : State) : Host.Outcome State Fault Refusal :=
  match s.pop with
  | .error e => .fault e
  | .ok (t, s1) => .next (({ s1 with w := k }.loadPc t).tick 2)

/-- RETFIE: pop the pc, set the enable bit of the level, with s = 1 restore W, STATUS and BSR (42_control R221,
60_exceptions R291). -/
def execRetfie (fast : Bool) (s : State) : Host.Outcome State Fault Refusal :=
  match s.pop with
  | .error e => .fault e
  | .ok (t, s1) =>
    let s2 := s1.interruptReturn
    .next (((if fast then s2.fastRestore else s2).loadPc t).tick 2)

/-- RETURN: pop the pc, with s = 1 restore W, STATUS and BSR (42_control R222). -/
def execReturn (fast : Bool) (s : State) : Host.Outcome State Fault Refusal :=
  match s.pop with
  | .error e => .fault e
  | .ok (t, s1) => .next (((if fast then s1.fastRestore else s1).loadPc t).tick 2)

/-- SLEEP: the watchdog counter and its prescaler to 0, TO to 1, PD to 0, asleep at the next instruction (42_control
R223). -/
def execSleep (s : State) : Host.Outcome State Fault Refusal :=
  .next (({ s with
      wdt := 0, wdtps := 0, wdtClearedAt := s.cycles, toBit := true, pdBit := false, asleep := true }.advance 2#21).tick 1)


end Sys2Proof.Machine
end

