-- ==== Sys2Proof/Machine/Literal.lean ====
section
/-! DEFINITION. The literal instructions (43_literal R240 to R249). -/

namespace Sys2Proof.Machine

/-- The end of a one-word, one-cycle instruction that has no file operand (43_literal R240). -/
def literalNext (s : State) : Host.Outcome State Fault Refusal := .next ((s.advance 2#21).tick 1)

/-- ADDLW: WREG + k, all five flags (43_literal R241). -/
def execAddlw (k : BitVec 8) (s : State) : Host.Outcome State Fault Refusal :=
  let r := add8 s.w k false
  literalNext { s with w := r.value, status := r.flags }

/-- ANDLW: WREG and k, flags N and Z (43_literal R242). -/
def execAndlw (k : BitVec 8) (s : State) : Host.Outcome State Fault Refusal :=
  let r := s.w &&& k
  literalNext { s with w := r, status := setNZ r s.status }

/-- IORLW: WREG or k, flags N and Z (43_literal R243). -/
def execIorlw (k : BitVec 8) (s : State) : Host.Outcome State Fault Refusal :=
  let r := s.w ||| k
  literalNext { s with w := r, status := setNZ r s.status }

/-- MOVLB: the four low bits of k to BSR (43_literal R244). -/
def execMovlb (k : BitVec 8) (s : State) : Host.Outcome State Fault Refusal :=
  literalNext { s with bsr := k.extractLsb' 0 4 }

/-- LFSR: k to FSR number f; two words (43_literal R245). The number 3 is no instruction and never comes out of the
decoder (30_encoding R120): the fault names the word that such an instruction would have. -/
def execLfsr (f : BitVec 2) (k : BitVec 12) (s : State) : Host.Outcome State Fault Refusal :=
  match fsrOfField f with
  | some n => .next (((s.setFsr n k).advance 4#21).tick 2)
  | none => .fault (.reservedInstruction s.pc ((encode (.lfsr f k)).headD 0#16))

/-- MOVLW: k to WREG, no flag (43_literal R246). -/
def execMovlw (k : BitVec 8) (s : State) : Host.Outcome State Fault Refusal :=
  literalNext { s with w := k }

/-- MULLW: PRODH:PRODL := WREG * k, unsigned, no flag (43_literal R247). -/
def execMullw (k : BitVec 8) (s : State) : Host.Outcome State Fault Refusal :=
  let p := product s.w k
  literalNext { s with prodh := p.extractLsb' 8 8, prodl := p.extractLsb' 0 8 }

/-- SUBLW: k - WREG, all five flags (43_literal R248). -/
def execSublw (k : BitVec 8) (s : State) : Host.Outcome State Fault Refusal :=
  let r := sub8 k s.w false
  literalNext { s with w := r.value, status := r.flags }

/-- XORLW: WREG xor k, flags N and Z (43_literal R249). -/
def execXorlw (k : BitVec 8) (s : State) : Host.Outcome State Fault Refusal :=
  let r := s.w ^^^ k
  literalNext { s with w := r, status := setNZ r s.status }


end Sys2Proof.Machine
end

