-- ==== Sys2Proof/Machine/Table.lean ====
section
/-! DEFINITION. The table read and table write instructions (44_table R260 to R269). -/

namespace Sys2Proof.Machine

/-- TABLAT := the byte of program memory at `p`, TBLPTR := `q` (44_table R260, R261). -/
def tableRead (p q : ProgAddr) (s : State) : Host.Outcome State Fault Refusal :=
  match programByte s p with
  | .error e => .fault e
  | .ok v => .next (({ s with tablat := v, tblptr := q }.advance 2#21).tick 2)

/-- The holding register that the low three bits of `p` name := TABLAT, TBLPTR := `q` (44_table R260, R265). Program
memory is not written (20_memory R88). -/
def tableWrite (p q : ProgAddr) (s : State) : Host.Outcome State Fault Refusal :=
  .next (({ s with hold := s.hold.set (p.extractLsb' 0 3) s.tablat, tblptr := q }.advance 2#21).tick 2)

/-- TBLRD *: pointer unchanged (44_table R261). -/
def execTblrd (s : State) : Host.Outcome State Fault Refusal := tableRead s.tblptr s.tblptr s

/-- TBLRD *+: pointer + 1 afterwards (44_table R262). -/
def execTblrdPostInc (s : State) : Host.Outcome State Fault Refusal := tableRead s.tblptr (s.tblptr + 1#21) s

/-- TBLRD *-: pointer - 1 afterwards (44_table R263). -/
def execTblrdPostDec (s : State) : Host.Outcome State Fault Refusal := tableRead s.tblptr (s.tblptr - 1#21) s

/-- TBLRD +*: pointer + 1 before (44_table R264). -/
def execTblrdPreInc (s : State) : Host.Outcome State Fault Refusal := tableRead (s.tblptr + 1#21) (s.tblptr + 1#21) s

/-- TBLWT *: pointer unchanged (44_table R266). -/
def execTblwt (s : State) : Host.Outcome State Fault Refusal := tableWrite s.tblptr s.tblptr s

/-- TBLWT *+: pointer + 1 afterwards (44_table R267). -/
def execTblwtPostInc (s : State) : Host.Outcome State Fault Refusal := tableWrite s.tblptr (s.tblptr + 1#21) s

/-- TBLWT *-: pointer - 1 afterwards (44_table R268). -/
def execTblwtPostDec (s : State) : Host.Outcome State Fault Refusal := tableWrite s.tblptr (s.tblptr - 1#21) s

/-- TBLWT +*: pointer + 1 before (44_table R269). -/
def execTblwtPreInc (s : State) : Host.Outcome State Fault Refusal := tableWrite (s.tblptr + 1#21) (s.tblptr + 1#21) s


end Sys2Proof.Machine
end

