-- ==== Sys2Proof/Machine/Dispatch.lean ====
section
/-! DEFINITION. The meaning of every instruction: one arm per constructor, in the order of spec/opcode_table.json. -/

namespace Sys2Proof.Machine

/-- One instruction at the pc. -/
def exec (i : Instr) (s : State) : Host.Outcome State Fault Refusal :=
  match i with
  | .addwf d a f => Sys2Proof.Machine.execAddwf d a f s
  | .addwfc d a f => Sys2Proof.Machine.execAddwfc d a f s
  | .andwf d a f => Sys2Proof.Machine.execAndwf d a f s
  | .clrf a f => Sys2Proof.Machine.execClrf a f s
  | .comf d a f => Sys2Proof.Machine.execComf d a f s
  | .cpfseq a f => Sys2Proof.Machine.execCpfseq a f s
  | .cpfsgt a f => Sys2Proof.Machine.execCpfsgt a f s
  | .cpfslt a f => Sys2Proof.Machine.execCpfslt a f s
  | .decf d a f => Sys2Proof.Machine.execDecf d a f s
  | .decfsz d a f => Sys2Proof.Machine.execDecfsz d a f s
  | .decfsnz d a f => Sys2Proof.Machine.execDecfsnz d a f s
  | .incf d a f => Sys2Proof.Machine.execIncf d a f s
  | .incfsz d a f => Sys2Proof.Machine.execIncfsz d a f s
  | .infsnz d a f => Sys2Proof.Machine.execInfsnz d a f s
  | .iorwf d a f => Sys2Proof.Machine.execIorwf d a f s
  | .movf d a f => Sys2Proof.Machine.execMovf d a f s
  | .movff fs fd => Sys2Proof.Machine.execMovff fs fd s
  | .movwf a f => Sys2Proof.Machine.execMovwf a f s
  | .mulwf a f => Sys2Proof.Machine.execMulwf a f s
  | .negf a f => Sys2Proof.Machine.execNegf a f s
  | .rlcf d a f => Sys2Proof.Machine.execRlcf d a f s
  | .rlncf d a f => Sys2Proof.Machine.execRlncf d a f s
  | .rrcf d a f => Sys2Proof.Machine.execRrcf d a f s
  | .rrncf d a f => Sys2Proof.Machine.execRrncf d a f s
  | .setf a f => Sys2Proof.Machine.execSetf a f s
  | .subfwb d a f => Sys2Proof.Machine.execSubfwb d a f s
  | .subwf d a f => Sys2Proof.Machine.execSubwf d a f s
  | .subwfb d a f => Sys2Proof.Machine.execSubwfb d a f s
  | .swapf d a f => Sys2Proof.Machine.execSwapf d a f s
  | .tstfsz a f => Sys2Proof.Machine.execTstfsz a f s
  | .xorwf d a f => Sys2Proof.Machine.execXorwf d a f s
  | .bcf b a f => Sys2Proof.Machine.execBcf b a f s
  | .bsf b a f => Sys2Proof.Machine.execBsf b a f s
  | .btfsc b a f => Sys2Proof.Machine.execBtfsc b a f s
  | .btfss b a f => Sys2Proof.Machine.execBtfss b a f s
  | .btg b a f => Sys2Proof.Machine.execBtg b a f s
  | .bc n => Sys2Proof.Machine.execBc n s
  | .bn n => Sys2Proof.Machine.execBn n s
  | .bnc n => Sys2Proof.Machine.execBnc n s
  | .bnn n => Sys2Proof.Machine.execBnn n s
  | .bnov n => Sys2Proof.Machine.execBnov n s
  | .bnz n => Sys2Proof.Machine.execBnz n s
  | .bov n => Sys2Proof.Machine.execBov n s
  | .bz n => Sys2Proof.Machine.execBz n s
  | .bra n => Sys2Proof.Machine.execBra n s
  | .call fast k => Sys2Proof.Machine.execCall fast k s
  | .clrwdt => Sys2Proof.Machine.execClrwdt s
  | .goto k => Sys2Proof.Machine.execGoto k s
  | .daw => Sys2Proof.Machine.execDaw s
  | .nop => Sys2Proof.Machine.execNop s
  | .nopF x => Sys2Proof.Machine.execNopF x s
  | .pop => Sys2Proof.Machine.execPop s
  | .push => Sys2Proof.Machine.execPush s
  | .rcall n => Sys2Proof.Machine.execRcall n s
  | .reset => Sys2Proof.Machine.execReset s
  | .retlw k => Sys2Proof.Machine.execRetlw k s
  | .retfie fast => Sys2Proof.Machine.execRetfie fast s
  | .ret fast => Sys2Proof.Machine.execReturn fast s
  | .sleep => Sys2Proof.Machine.execSleep s
  | .addlw k => Sys2Proof.Machine.execAddlw k s
  | .andlw k => Sys2Proof.Machine.execAndlw k s
  | .iorlw k => Sys2Proof.Machine.execIorlw k s
  | .movlb k => Sys2Proof.Machine.execMovlb k s
  | .lfsr f k => Sys2Proof.Machine.execLfsr f k s
  | .movlw k => Sys2Proof.Machine.execMovlw k s
  | .mullw k => Sys2Proof.Machine.execMullw k s
  | .sublw k => Sys2Proof.Machine.execSublw k s
  | .xorlw k => Sys2Proof.Machine.execXorlw k s
  | .tblrd => Sys2Proof.Machine.execTblrd s
  | .tblrdPostInc => Sys2Proof.Machine.execTblrdPostInc s
  | .tblrdPostDec => Sys2Proof.Machine.execTblrdPostDec s
  | .tblrdPreInc => Sys2Proof.Machine.execTblrdPreInc s
  | .tblwt => Sys2Proof.Machine.execTblwt s
  | .tblwtPostInc => Sys2Proof.Machine.execTblwtPostInc s
  | .tblwtPostDec => Sys2Proof.Machine.execTblwtPostDec s
  | .tblwtPreInc => Sys2Proof.Machine.execTblwtPreInc s

end Sys2Proof.Machine
end

