-- ==== Sys2Proof/Machine/Cycle.lean ====
section
/-! DEFINITION. One step of the machine in parts: the core's own move, the environment's move before it, and how a test
places an instruction at the pc. -/

namespace Sys2Proof.Machine

/-- The core's own move: asleep it does nothing (60_exceptions R297); awake it fetches, decodes and executes the
instruction at the pc (00_scope R8, 60_exceptions R282). -/
def runCore (s : State) : Host.Outcome State Fault Refusal :=
  if s.asleep then .next s
  else
    match fetchInstr s s.pc with
    | .error e => .fault e
    | .ok (i, _) => exec i s

/-- One step at an instruction boundary: the next of the environment's moves is taken from the list; if it makes an event,
the event is the step; else the core moves (00_scope R8, 60_exceptions R289). An empty list is an environment that does
nothing: the spec's base model (60_exceptions R293). -/
def boundaryStep (s : State) : Host.Outcome State Fault Refusal :=
  match s.inputs with
  | [] => runCore s
  | i :: rest =>
    let s1 := countWdt { s with inputs := rest } i
    match boundaryEvent s1 i with
    | some r => outcome r
    | none => runCore s1

/-- Store bytes at consecutive addresses from an address on, modulo 2^21. -/
def storeBytes (m : Memory) (a : ProgAddr) : List Byte → Memory
  | [] => m
  | b :: bs => storeBytes (m.write a.toNat b) (a + 1#21) bs

/-- The state with an instruction's two words at the pc, awake, with no move of the environment outstanding. -/
def placeInstr (s : State) (nbits w : Nat) : State :=
  { s with prog := storeBytes s.prog s.pc (tableBytes nbits w), inputs := [], asleep := false }

end Sys2Proof.Machine
end

