-- ==== Sys2Proof/Machine/Step.lean ====
section
/-! DEFINITION. The step function and the placing of an instruction where it fetches. -/

namespace Sys2Proof.Machine

/-- One step of the machine. -/
def step (s : State) : Host.Outcome State Fault Refusal := boundaryStep s

/-- The state with the instruction `w` (numbered as spec/opcode_table.json numbers its bits) where the next step fetches.
It stands for the loading of a program from outside (70_reset R324, R325; assumption log 24). -/
def State.withFetchWord (s : State) (nbits w : Nat) : State := placeInstr s nbits w

end Sys2Proof.Machine
end

