-- ==== Sys2Proof/Safety.lean ====
section
/-! DEFINITION. The terms that the claims use: the invariant of the machine, exact arithmetic for the flags, and what it
means that an instruction puts, stores or tests a byte of its file operand and leaves the rest alone. -/

namespace Sys2Proof.Machine

/-- The invariants of 10_state R56, and the canonical form of both memories, with every listed address inside the memory. -/
structure Inv (s : State) : Prop where
  pc_even : s.pc.getLsbD 0 = false
  stack_bounded : s.stack.length ≤ s.params.stackDepth
  data_wf : s.data.wf
  data_below : s.data.below (min s.params.ramBytes 0xF80)
  prog_wf : s.prog.wf
  prog_below : s.prog.below 2097152

/-! ## Resets -/

/-- An element went from `old` to `new` as its entry of `RESET_STATE` says (70_reset R322). -/
def IsReset {α : Type} (r : ResetValue α) (old new : α) : Prop :=
  match r with
  | .value v => new = v
  | .unknown => True
  | .unchanged => new = old

/-- Every element that the column gives an entry went from `s` to `t` as the entry says (70_reset R321, R322). Of data
memory the entry gives the bytes that the part has. -/
structure ResetBy (row : ResetRow) (s t : State) : Prop where
  w : IsReset row.w s.w t.w
  status : IsReset row.status s.status t.status
  bsr : IsReset row.bsr s.bsr t.bsr
  fsr0h : IsReset row.fsr0h (s.fsr0.extractLsb' 8 4) (t.fsr0.extractLsb' 8 4)
  fsr0l : IsReset row.fsr0l (s.fsr0.extractLsb' 0 8) (t.fsr0.extractLsb' 0 8)
  fsr1h : IsReset row.fsr1h (s.fsr1.extractLsb' 8 4) (t.fsr1.extractLsb' 8 4)
  fsr1l : IsReset row.fsr1l (s.fsr1.extractLsb' 0 8) (t.fsr1.extractLsb' 0 8)
  fsr2h : IsReset row.fsr2h (s.fsr2.extractLsb' 8 4) (t.fsr2.extractLsb' 8 4)
  fsr2l : IsReset row.fsr2l (s.fsr2.extractLsb' 0 8) (t.fsr2.extractLsb' 0 8)
  prodh : IsReset row.prodh s.prodh t.prodh
  prodl : IsReset row.prodl s.prodl t.prodl
  tblptr : IsReset row.tblptr s.tblptr t.tblptr
  tablat : IsReset row.tablat s.tablat t.tablat
  pclath : IsReset row.pclath s.pclath t.pclath
  pclatu : IsReset row.pclatu s.pclatu t.pclatu
  gieh : IsReset row.gieh s.gieh t.gieh
  giel : IsReset row.giel s.giel t.giel
  toBit : IsReset row.toBit s.toBit t.toBit
  pdBit : IsReset row.pdBit s.pdBit t.pdBit
  ws : IsReset row.ws s.ws t.ws
  statuss : IsReset row.statuss s.statuss t.statuss
  bsrs : IsReset row.bsrs s.bsrs t.bsrs
  hold : IsReset row.hold s.hold t.hold
  wdt : IsReset row.wdt s.wdt t.wdt
  wdtps : IsReset row.wdtps s.wdtps t.wdtps
  data_value : ∀ cells, row.data = .value cells →
    ∀ a, a < min s.params.ramBytes 0xF80 → t.data.read a = Memory.read cells a
  data_unchanged : row.data = .unchanged → t.data = s.data

/-! ## Exact arithmetic -/

/-- `r` and `st` are the byte and the flags of x + y + cin, computed in integers (10_state R24 to R26, R30): C and DC are
the carries out of bits 7 and 3, OV says that the signed sum lies outside -128..127. -/
def IsSum (x y : Byte) (cin : Bool) (r : Byte) (st : Status) : Prop :=
  r.toNat = (x.toNat + y.toNat + cin.toNat) % 256 ∧
  st.c = decide (x.toNat + y.toNat + cin.toNat > 255) ∧
  st.dc = decide (x.toNat % 16 + y.toNat % 16 + cin.toNat > 15) ∧
  st.z = decide (r.toNat = 0) ∧
  st.n = decide (r.toNat ≥ 128) ∧
  st.ov = decide (x.toInt + y.toInt + cin.toNat < -128 ∨ x.toInt + y.toInt + cin.toNat > 127)

/-- `r` and `st` are the byte and the flags of x - y - borrow, computed in integers (10_state R24 to R26, R31): C and DC
say that no borrow was needed, OV that the signed difference lies outside -128..127. -/
def IsDifference (x y : Byte) (borrow : Bool) (r : Byte) (st : Status) : Prop :=
  (r.toNat : Int) = ((x.toNat : Int) - y.toNat - borrow.toNat) % 256 ∧
  st.c = decide (x.toNat ≥ y.toNat + borrow.toNat) ∧
  st.dc = decide (x.toNat % 16 ≥ y.toNat % 16 + borrow.toNat) ∧
  st.z = decide (r.toNat = 0) ∧
  st.n = decide (r.toNat ≥ 128) ∧
  st.ov = decide (x.toInt - y.toInt - borrow.toNat < -128 ∨ x.toInt - y.toInt - borrow.toNat > 127)

/-- N and Z are those of `r`, the other three flags are as before (10_state R32). -/
def IsNZ (r : Byte) (before after : Status) : Prop :=
  after = { before with n := decide (r.toNat ≥ 128), z := decide (r.toNat = 0) }

/-- Two packed decimal digits, each 0 to 9, as a byte. -/
def bcdByte (tens ones : Fin 10) : Byte := BitVec.ofNat 8 (16 * tens.val + ones.val)

/-- The value of a program address as an integer modulo 2^21. -/
def IsAddr (t : ProgAddr) (n : Int) : Prop := (t.toNat : Int) = n % 2097152

/-! ## File operands -/

/-- The data address that an indirect register points to, in numbers (93_implementation_defined G3). -/
def PointsTo (s : State) (m : IndMode) (n : FsrNum) (ea : DataAddr) : Prop :=
  match m with
  | .indf => ea = s.fsr n
  | .postinc => ea = s.fsr n
  | .postdec => ea = s.fsr n
  | .preinc => (ea.toNat : Int) = ((s.fsr n).toNat + 1) % 4096
  | .plusw => (ea.toNat : Int) = ((s.fsr n).toNat + s.w.toInt) % 4096

/-- The address is one of general-purpose memory that the part has (20_memory R74, R76). -/
abbrev InRam (s : State) (ea : DataAddr) : Prop := ea.toNat < min s.params.ramBytes 0xF80

/-- Instruction `i` reads the operand byte `v` and puts a byte `r` to `d`, where `result v before r after` says which byte
that is and which STATUS `after` follows the STATUS `before`. First for every place of the operand that an access reaches:
the next state is exactly the write of `r` to the place, the flags, the due step of an FSR and the count of cycles; and no
byte of data memory changes but the one at the place, and that only with d = 1. Then, written out, for an operand in
general-purpose memory. Last, an operand that no access reaches stops the instruction with the fault of the access. -/
def PutsResult (i : Instr) (s : State) (d : Dest) (a : Access) (f : BitVec 8)
    (result : Byte → Status → Byte → Status → Prop) : Prop :=
  (∀ l v s1, fetchOperand s a f = .ok (l, v, s1) →
    ∃ r st t, result v (writeDest s1 d l.cell r).status r st ∧
      t = (l.settle { writeDest s1 d l.cell r with status := st }).tick (fileCycles d l.cell) ∧
      exec i s = .next t ∧
      ∀ k : Nat, (∀ ea, d = .f → l.cell = .ram ea → k ≠ ea.toNat) → t.data.read k = s.data.read k) ∧
  (InRam s (effectiveAddr s a f) →
    ∃ r st, result (s.data.read (effectiveAddr s a f).toNat) s.status r st ∧
      exec i s = .next { s with
        pc := s.pc + 2#21
        cycles := s.cycles + 1
        status := st
        w := if d = .w then r else s.w
        data := if d = .f then s.data.write (effectiveAddr s a f).toNat r else s.data }) ∧
  (∀ e, fetchOperand s a f = .error e → exec i s = .fault e)

/-- Instruction `i` stores the byte `v` to its file operand without reading it, then changes STATUS by `flags`: for every
place that an access reaches, then written out for general-purpose memory, then the fault of an access that reaches none. -/
def StoresByte (i : Instr) (s : State) (a : Access) (f : BitVec 8) (v : Byte) (flags : Status → Status) : Prop :=
  (∀ l s1, locate (s.advance 2#21) (effectiveAddr s a f) = .ok (l, s1) →
    ∃ t, t = (l.settle { writeCell s1 l.cell v with status := flags (writeCell s1 l.cell v).status }).tick
          (fileCycles .f l.cell) ∧
      exec i s = .next t ∧
      ∀ k : Nat, (∀ ea, l.cell = .ram ea → k ≠ ea.toNat) → t.data.read k = s.data.read k) ∧
  (InRam s (effectiveAddr s a f) →
    exec i s = .next { s with
      pc := s.pc + 2#21
      cycles := s.cycles + 1
      status := flags s.status
      data := s.data.write (effectiveAddr s a f).toNat v }) ∧
  (∀ e, locate (s.advance 2#21) (effectiveAddr s a f) = .error e → exec i s = .fault e)

/-- Instruction `i` reads its file operand and skips the next instruction when the byte meets `cond`: it changes nothing
but the pc, the count of cycles and what the read itself changes (the step of an FSR, the latches at a read of PCL), and no
byte of data memory. A skip over `n` words goes to the word after them. -/
def TestsAndSkips (i : Instr) (s : State) (a : Access) (f : BitVec 8) (cond : Byte → Prop) : Prop :=
  (∀ l v s1, fetchOperand s a f = .ok (l, v, s1) →
    (l.settle s1).data = s.data ∧
    (¬ cond v → exec i s = .next ((l.settle s1).tick 1)) ∧
    (∀ n, cond v → skipWords s = .ok n →
      exec i s = .next ({ l.settle s1 with pc := s.pc + BitVec.ofNat 21 (2 + 2 * n) }.tick (1 + n))) ∧
    (∀ e, cond v → skipWords s = .error e → exec i s = .fault e)) ∧
  (InRam s (effectiveAddr s a f) →
    (¬ cond (s.data.read (effectiveAddr s a f).toNat) →
      exec i s = .next { s with pc := s.pc + 2#21, cycles := s.cycles + 1 }) ∧
    (∀ n, cond (s.data.read (effectiveAddr s a f).toNat) → skipWords s = .ok n →
      exec i s = .next { s with pc := s.pc + BitVec.ofNat 21 (2 + 2 * n), cycles := s.cycles + 1 + n })) ∧
  (∀ e, fetchOperand s a f = .error e → exec i s = .fault e)

/-- Instruction `i` puts the byte `r v` to `d` and skips the next instruction when that byte meets `cond`; no flag changes
unless STATUS itself is the destination, and no byte of data memory but the one at the place with d = 1. When the byte goes
to PCL and the skip is taken, nothing is said of the pc and of the counter of free values, and the cycles are two over one
word, two or three over two. A skip that cannot be made stops the instruction before the write. -/
def CountsAndSkips (i : Instr) (s : State) (d : Dest) (a : Access) (f : BitVec 8) (r : Byte → Byte)
    (cond : Byte → Prop) : Prop :=
  (∀ l v s1, fetchOperand s a f = .ok (l, v, s1) →
    (¬ cond (r v) →
      ∃ t, t = (l.settle (writeDest s1 d l.cell (r v))).tick (fileCycles d l.cell) ∧ exec i s = .next t ∧
        ∀ k : Nat, (∀ ea, d = .f → l.cell = .ram ea → k ≠ ea.toNat) → t.data.read k = s.data.read k) ∧
    (∀ n, cond (r v) → skipWords s = .ok n →
      ∃ t, exec i s = .next t ∧
        { t with pc := s.pc, cycles := s.cycles, freeIdx := s.freeIdx } =
          { l.settle (writeDest s1 d l.cell (r v)) with pc := s.pc, cycles := s.cycles, freeIdx := s.freeIdx } ∧
        (¬ (d = .f ∧ l.cell = .sfr .pcl) →
          t.pc = s.pc + BitVec.ofNat 21 (2 + 2 * n) ∧ t.cycles = s.cycles + 1 + n ∧ t.freeIdx = s1.freeIdx) ∧
        (d = .f ∧ l.cell = .sfr .pcl → s.cycles + 2 ≤ t.cycles ∧ t.cycles ≤ s.cycles + 1 + n) ∧
        ∀ k : Nat, (∀ ea, d = .f → l.cell = .ram ea → k ≠ ea.toNat) → t.data.read k = s.data.read k) ∧
    (∀ e, cond (r v) → skipWords s = .error e → exec i s = .fault e)) ∧
  (InRam s (effectiveAddr s a f) →
    ∀ x, x = r (s.data.read (effectiveAddr s a f).toNat) →
    (¬ cond x →
      exec i s = .next { s with
        pc := s.pc + 2#21
        cycles := s.cycles + 1
        w := if d = .w then x else s.w
        data := if d = .f then s.data.write (effectiveAddr s a f).toNat x else s.data }) ∧
    (∀ n, cond x → skipWords s = .ok n →
      exec i s = .next { s with
        pc := s.pc + BitVec.ofNat 21 (2 + 2 * n)
        cycles := s.cycles + 1 + n
        w := if d = .w then x else s.w
        data := if d = .f then s.data.write (effectiveAddr s a f).toNat x else s.data })) ∧
  (∀ e, fetchOperand s a f = .error e → exec i s = .fault e)

/-! ## Kinds of instruction, for the whole-machine rules -/

/-- The instruction has an operand in data memory (40_byte_oriented, 41_bit_oriented). -/
def hasFileOperand : Instr → Bool
  | .addwf _ _ _ | .addwfc _ _ _ | .andwf _ _ _ | .clrf _ _ | .comf _ _ _ | .cpfseq _ _ | .cpfsgt _ _ | .cpfslt _ _
  | .decf _ _ _ | .decfsz _ _ _ | .decfsnz _ _ _ | .incf _ _ _ | .incfsz _ _ _ | .infsnz _ _ _ | .iorwf _ _ _
  | .movf _ _ _ | .movff _ _ | .movwf _ _ | .mulwf _ _ | .negf _ _ | .rlcf _ _ _ | .rlncf _ _ _ | .rrcf _ _ _
  | .rrncf _ _ _ | .setf _ _ | .subfwb _ _ _ | .subwf _ _ _ | .subwfb _ _ _ | .swapf _ _ _ | .tstfsz _ _
  | .xorwf _ _ _ | .bcf _ _ _ | .bsf _ _ _ | .btfsc _ _ _ | .btfss _ _ _ | .btg _ _ _ => true
  | .bc _ | .bn _ | .bnc _ | .bnn _ | .bnov _ | .bnz _ | .bov _ | .bz _ | .bra _ | .call _ _ | .clrwdt | .goto _ | .daw
  | .nop | .nopF _ | .pop | .push | .rcall _ | .reset | .retlw _ | .retfie _ | .ret _ | .sleep | .addlw _ | .andlw _
  | .iorlw _ | .movlb _ | .lfsr _ _ | .movlw _ | .mullw _ | .sublw _ | .xorlw _ | .tblrd | .tblrdPostInc
  | .tblrdPostDec | .tblrdPreInc | .tblwt | .tblwtPostInc | .tblwtPostDec | .tblwtPreInc => false

end Sys2Proof.Machine
end

