-- ==== Sys2Proof/Certificates/Slice0/Obligations.lean ====
section
/-! DEFINITION. The statements for the provers. What each says, and the rules it rests on, stands in OBLIGATIONS.json. -/

open Sys2Proof Sys2Proof.Machine

/-! ## Encoding -/

/-- Decoding the encoding of any well-formed instruction gives the instruction and the words after it. -/
def Obligations.DecodeEncode : Prop :=
  ∀ (i : Instr) (rest : List Word), i.wellFormed = true → decode (encode i ++ rest) = .ok (i, rest)

/-- Whatever words decode are the encoding of the instruction they decode to, every bit of it, and that instruction is
well formed. -/
def Obligations.EncodeDecode : Prop :=
  ∀ (ws : List Word) (i : Instr) (rest : List Word), decode ws = .ok (i, rest) →
    i.wellFormed = true ∧ encode i ++ rest = ws

/-- Laid out as bytes, the less significant byte of a word first, an instruction's words decode to it. -/
def Obligations.DecodeBytesLittleEndian : Prop :=
  ∀ i : Instr, i.wellFormed = true →
    decodeBytes (bytesOfWords (encode i)) = .ok i ∧
      (bytesOfWords (encode i)).map (fun b => b.toNat) =
        (encode i).flatMap fun w => [w.toNat % 256, w.toNat / 256]

/-- The words that begin no instruction. -/
def Obligations.ReservedWordSet : Prop :=
  ∀ w : Word, firstWord w = .reserved ↔
    (0x0001 ≤ w.toNat ∧ w.toNat ≤ 0x0002) ∨ (0x0014 ≤ w.toNat ∧ w.toNat ≤ 0x00FE) ∨
    (0xE800 ≤ w.toNat ∧ w.toNat ≤ 0xEBFF) ∨ (0xEE30 ≤ w.toNat ∧ w.toNat ≤ 0xEEFF)

/-- The words that begin a two-word instruction: MOVFF, CALL, GOTO, LFSR. -/
def Obligations.TwoWordSet : Prop :=
  ∀ w : Word, isTwoWord w = true ↔
    (0xC000 ≤ w.toNat ∧ w.toNat ≤ 0xCFFF) ∨ (0xEC00 ≤ w.toNat ∧ w.toNat ≤ 0xEDFF) ∨
    (0xEF00 ≤ w.toNat ∧ w.toNat ≤ 0xEFFF) ∨ (0xEE00 ≤ w.toNat ∧ w.toNat ≤ 0xEE2F)

/-- A second word completes its instruction exactly when bits 15..12 are 1111 and, for LFSR, bits 11..8 are 0000. -/
def Obligations.SecondWordPrefix : Prop :=
  ∀ (t : TwoWord) (w : Word), (secondWord t w).isSome = true ↔
    (w.toNat / 4096 = 15 ∧ ∀ f k, t = .lfsr f k → w.toNat / 256 % 16 = 0)

/-- One word or word pair of every format, written out from the patterns, decodes to its instruction. -/
def Obligations.SampleWords : Prop :=
  decode [0b0010010111000010#16] = .ok (.addwf .w .banked 0xC2#8, []) ∧
  decode [0b0110101001011010#16] = .ok (.clrf .access 0x5A#8, []) ∧
  decode [0b1001111111000111#16] = .ok (.bcf 7#3 .banked 0xC7#8, []) ∧
  decode [0b1100000100100011#16, 0b1111111111101000#16] = .ok (.movff 0x123#12 0xFE8#12, []) ∧
  decode [0b1110110100110100#16, 0b1111000000010010#16] = .ok (.call true 0x01234#20, []) ∧
  decode [0b1110111100110100#16, 0b1111000000010010#16] = .ok (.goto 0x01234#20, []) ∧
  decode [0b1110111000101010#16, 0b1111000010111100#16] = .ok (.lfsr 2#2 0xABC#12, []) ∧
  decode [0b1110001011111110#16] = .ok (.bc 0xFE#8, []) ∧
  decode [0b1101101111111111#16] = .ok (.rcall 0x3FF#11, []) ∧
  decode [0b0000111001011010#16] = .ok (.movlw 0x5A#8, []) ∧
  decode [0b0000000000001011#16] = .ok (.tblrdPreInc, []) ∧
  decode [0b0000000000010001#16] = .ok (.retfie true, []) ∧
  decode [0b1111101010111100#16] = .ok (.nopF 0xABC#12, [])

/-! ## The step -/

/-- The bytes at the pc decode to `i`: the step is `exec i`. -/
def Obligations.StepRunsDecoded : Prop :=
  ∀ (s : State) (bs : List Byte) (i : Instr),
    s.inputs = [] → s.asleep = false → (bs.length = 2 ∨ bs.length = 4) →
    (∀ j (h : j < bs.length), s.prog.read (s.pc + BitVec.ofNat 21 j).toNat = bs[j] ∧
      (s.pc + BitVec.ofNat 21 (j - j % 2)).toNat < s.params.progBytes) →
    decodeBytes bs = .ok i →
    i.wellFormed = true ∧ step s = exec i s

/-- When the environment's move makes no event, the step is `exec` of the instruction at the pc, after the watchdog's
counting. -/
def Obligations.StepWithoutEvent : Prop :=
  ∀ (s : State) (x : BoundaryInput) (rest : List BoundaryInput) (i : Instr) (n : Nat),
    s.inputs = x :: rest → s.asleep = false →
    boundaryEvent (countWdt { s with inputs := rest } x) x = none →
    fetchInstr s s.pc = .ok (i, n) →
    step s = exec i (countWdt { s with inputs := rest } x)

/-- A reserved word at the pc, a first word without a proper second word, and a second word that would lie above the program
memory that exists, stop the step by name. -/
def Obligations.StepStopsOnNoInstruction : Prop :=
  ∀ (s : State) (w w2 : Word), s.inputs = [] → s.asleep = false → s.pc.toNat < s.params.progBytes →
    w = s.prog.read (s.pc + 1#21).toNat ++ s.prog.read s.pc.toNat →
    (firstWord w = .reserved → step s = .fault (.reservedInstruction s.pc w)) ∧
    (∀ t, firstWord w = .two t → (s.pc + 2#21).toNat < s.params.progBytes →
      w2 = s.prog.read (s.pc + 3#21).toNat ++ s.prog.read (s.pc + 2#21).toNat →
      secondWord t w2 = none → step s = .fault (.malformedSecondWord s.pc w w2)) ∧
    (∀ t, firstWord w = .two t → s.params.progBytes ≤ (s.pc + 2#21).toNat → s.params.unimplProg = .fault →
      step s = .fault (.unimplementedProgram (s.pc + 2#21))) ∧
    (∀ t, firstWord w = .two t → s.params.progBytes ≤ (s.pc + 2#21).toNat → s.params.unimplProg = .readZero →
      step s = .fault (.malformedSecondWord s.pc w 0#16))

/-- Above the program memory that exists, the step faults or runs NOP, as `UNIMPL_PROG` says. -/
def Obligations.StepAboveProgramMemory : Prop :=
  ∀ s : State, s.inputs = [] → s.asleep = false → s.params.progBytes ≤ s.pc.toNat →
    (s.params.unimplProg = .fault → step s = .fault (.unimplementedProgram s.pc)) ∧
    (s.params.unimplProg = .readZero → step s = .next { s with pc := s.pc + 2#21, cycles := s.cycles + 1 })

/-- Every step keeps the invariant, from every state. -/
def Obligations.StepKeepsInv : Prop :=
  ∀ s t : State, Inv s → step s = .next t → Inv t

/-- The state after reset has the invariant. -/
def Obligations.ResetHasInv : Prop := Inv State.reset

/-- No step changes program memory (D20, log 23) or a parameter (log 25): DESIGN CHOICES. -/
def Obligations.StepKeepsProgram : Prop :=
  ∀ s t : State, step s = .next t → t.prog = s.prog ∧ t.params = s.params

/-- Which instructions change the registers that no data address reaches. What RESET changes of them beside the nesting, the
sleep state, the holding registers and the watchdog counters is only what a `RESET_STATE` other than the default table
says (log 4, 33). -/
def Obligations.HiddenRegisterWriters : Prop :=
  ∀ (i : Instr) (s t : State), exec i s = .next t →
    ((t.ws ≠ s.ws ∨ t.statuss ≠ s.statuss ∨ t.bsrs ≠ s.bsrs) →
      (∃ k, i = .call true k) ∨ (i = .reset ∧ s.params.resetState ≠ defaultResetState)) ∧
    (t.hold ≠ s.hold →
      i = .tblwt ∨ i = .tblwtPostInc ∨ i = .tblwtPostDec ∨ i = .tblwtPreInc ∨ i = .reset) ∧
    (t.intLevel ≠ s.intLevel → (∃ fast, i = .retfie fast) ∨ i = .reset) ∧
    ((t.toBit ≠ s.toBit ∨ t.pdBit ≠ s.pdBit) →
      i = .clrwdt ∨ i = .sleep ∨ (i = .reset ∧ s.params.resetState ≠ defaultResetState)) ∧
    ((t.wdt ≠ s.wdt ∨ t.wdtps ≠ s.wdtps ∨ t.wdtClearedAt ≠ s.wdtClearedAt) →
      i = .clrwdt ∨ i = .sleep ∨ i = .reset) ∧
    (t.asleep ≠ s.asleep → i = .sleep ∨ i = .reset) ∧
    t.inputs = s.inputs

/-- Only the seven stack instructions and RESET change how many addresses the return stack holds. -/
def Obligations.StackDepthWriters : Prop :=
  ∀ (i : Instr) (s t : State), exec i s = .next t → t.stack.length ≠ s.stack.length →
    (∃ fast k, i = .call fast k) ∨ (∃ n, i = .rcall n) ∨ i = .push ∨ i = .pop ∨ (∃ k, i = .retlw k) ∨
    (∃ fast, i = .retfie fast) ∨ (∃ fast, i = .ret fast) ∨ i = .reset

/-- An instruction without a file operand leaves data memory alone, RESET among them when `RESET_STATE` is the default
table (log 4); and but for RESET the latches of the pc, but for RESET and RETFIE the interrupt enables. -/
def Obligations.DataReachedByOperandOnly : Prop :=
  ∀ (i : Instr) (s t : State), exec i s = .next t → hasFileOperand i = false →
    ((i = .reset → s.params.resetState = defaultResetState) → t.data = s.data) ∧
    (i ≠ .reset → t.pclath = s.pclath ∧ t.pclatu = s.pclatu) ∧
    (i ≠ .reset → (∀ fast, i ≠ .retfie fast) → t.gieh = s.gieh ∧ t.giel = s.giel)

/-! ## Memory, addresses, flags -/

/-- A read after a write gives the byte written; every other address reads as before. -/
def Obligations.MemoryReadWrite : Prop :=
  ∀ (m : Memory) (a b : Nat) (v : Byte), m.wf → (m.write a v).read b = if a = b then v else m.read b

/-- The effective address in numbers. -/
def Obligations.EffectiveAddress : Prop :=
  ∀ (s : State) (f : BitVec 8),
    (effectiveAddr s .banked f).toNat = 256 * s.bsr.toNat + f.toNat ∧
    (effectiveAddr s .access f).toNat = if f.toNat < 0x80 then f.toNat else 0xF00 + f.toNat

/-- Which data accesses reach memory, and with which fault the others stop: DESIGN CHOICES of the spec for an SFR address
without a register (D3, log 20) and for absent memory (D9, log 27). -/
def Obligations.DataAddressSpace : Prop :=
  ∀ (p : Params) (i : DataAddr),
    (i.toNat < min p.ramBytes 0xF80 → cellAt p i = .ok (.ram i)) ∧
    (i.toNat < 0xF80 → p.ramBytes ≤ i.toNat → p.unimplData = .fault → cellAt p i = .error (.unimplementedData i)) ∧
    (i.toNat < 0xF80 → p.ramBytes ≤ i.toNat → p.unimplData = .readZero → cellAt p i = .ok .void) ∧
    (0xF80 ≤ i.toNat → p.sfrAt i = none → cellAt p i = .error (.unmodelledSFR i)) ∧
    (∀ r, 0xF80 ≤ i.toNat → p.sfrAt i = some r → p.models r = true → cellAt p i = .ok (.sfr r)) ∧
    (∀ r, 0xF80 ≤ i.toNat → p.sfrAt i = some r → p.models r = false → cellAt p i = .error (.unmodelledSFR i))

/-- The adder and the subtracter are exact. -/
def Obligations.AdderExact : Prop :=
  ∀ (x y : Byte) (c : Bool),
    IsSum x y c (add8 x y c).value (add8 x y c).flags ∧ IsDifference x y c (sub8 x y c).value (sub8 x y c).flags

/-- What a register read through its data address gives after a byte is written through it: the byte, cut to the width of
the register; of STATUS and INTCON the bits where `SFR_MAP`'s layout has a flag or an enable. -/
def Obligations.RegisterReadBack : Prop :=
  ∀ (s : State) (v : Byte) (n : FsrNum),
    (readSfr (writeSfr s .wreg v) .wreg).1 = v ∧
    (readSfr (writeSfr s .prodh v) .prodh).1 = v ∧ (readSfr (writeSfr s .prodl v) .prodl).1 = v ∧
    (readSfr (writeSfr s .tablat v) .tablat).1 = v ∧ (readSfr (writeSfr s .pclath v) .pclath).1 = v ∧
    (readSfr (writeSfr s .pclatu v) .pclatu).1 = v &&& 0x1F#8 ∧
    (readSfr (writeSfr s .bsr v) .bsr).1 = v &&& 0x0F#8 ∧
    (∀ l, l = s.params.statusLayout →
      (writeSfr s .status v).status =
        ⟨v.getLsbD l.n.toNat, v.getLsbD l.ov.toNat, v.getLsbD l.z.toNat, v.getLsbD l.dc.toNat, v.getLsbD l.c.toNat⟩ ∧
      (∀ j, j < 8 → (readSfr (writeSfr s .status v) .status).1.getLsbD j =
        (v.getLsbD j && decide (j ∈ [l.n.toNat, l.ov.toNat, l.z.toNat, l.dc.toNat, l.c.toNat]))) ∧
      (l = defaultStatusLayout → (readSfr (writeSfr s .status v) .status).1 = v &&& 0x1F#8)) ∧
    (readSfr (writeSfr s (.fsrh n) v) (.fsrh n)).1 = v &&& 0x0F#8 ∧
    (readSfr (writeSfr s (.fsrl n) v) (.fsrl n)).1 = v ∧
    (readSfr (writeSfr s .tblptru v) .tblptru).1 = v &&& 0x1F#8 ∧
    (readSfr (writeSfr s .tblptrh v) .tblptrh).1 = v ∧ (readSfr (writeSfr s .tblptrl v) .tblptrl).1 = v ∧
    (s.stack ≠ [] → (readSfr (writeSfr s .tosu v) .tosu).1 = v &&& 0x1F#8 ∧
      (readSfr (writeSfr s .tosh v) .tosh).1 = v ∧ (readSfr (writeSfr s .tosl v) .tosl).1 = v) ∧
    (∀ l, l = s.params.intconLayout →
      (writeSfr s .intcon v).gieh = v.getLsbD l.gieh.toNat ∧ (writeSfr s .intcon v).giel = v.getLsbD l.giel.toNat ∧
      (∀ j, (j = l.gieh.toNat ∨ j = l.giel.toNat) →
        (readSfr (writeSfr s .intcon v) .intcon).1.getLsbD j = v.getLsbD j) ∧
      (l = defaultIntconLayout →
        (readSfr (writeSfr s .intcon v) .intcon).1.extractLsb' 6 2 = v.extractLsb' 6 2))

/-- The parts of a wide register, written one by one, are the register: FSR, TBLPTR and the top of the stack. The parts of
TBLPTR (log 4) and of TOS (log 10) are PRESUMED, the cut of the bits they do not have is a DESIGN CHOICE (log 32). -/
def Obligations.WideRegisterParts : Prop :=
  ∀ (s : State) (h l u : Byte) (n : FsrNum),
    ((writeSfr (writeSfr s (.fsrh n) h) (.fsrl n) l).fsr n).toNat = 256 * (h.toNat % 16) + l.toNat ∧
    (writeSfr (writeSfr (writeSfr s .tblptru u) .tblptrh h) .tblptrl l).tblptr.toNat =
      65536 * (u.toNat % 32) + 256 * h.toNat + l.toNat ∧
    (s.stack ≠ [] → (writeSfr (writeSfr (writeSfr s .tosu u) .tosh h) .tosl l).tos.toNat =
      65536 * (u.toNat % 32) + 256 * h.toNat + l.toNat) ∧
    (writeSfr (writeSfr (writeSfr s .tosu u) .tosh h) .tosl l).stack.dropLast = s.stack.dropLast

/-- PCL: a read gives the low byte of the pc and sets both latches from the rest; a write loads the pc from the latches and
the byte with bit 0 cleared. Each leaves all else alone. -/
def Obligations.PclAccess : Prop :=
  ∀ (s : State) (v : Byte),
    (readSfr s .pcl).1.toNat = s.pc.toNat % 256 ∧
    (readSfr s .pcl).2.pclath.toNat = s.pc.toNat / 256 % 256 ∧
    (readSfr s .pcl).2.pclatu.toNat = s.pc.toNat / 65536 ∧
    { (readSfr s .pcl).2 with pclath := s.pclath, pclatu := s.pclatu } = s ∧
    (writeSfr s .pcl v).pc.toNat = 65536 * s.pclatu.toNat + 256 * s.pclath.toNat + (v.toNat - v.toNat % 2) ∧
    { writeSfr s .pcl v with pc := s.pc } = s

/-- The five ways of indirect addressing: the address used, what becomes of the FSR before and after the use, and what the
access reaches by what stands at the address: memory, a register, nothing where memory is absent, nothing where another
indirect register stands, or the fault of the address. -/
def Obligations.IndirectAddressing : Prop :=
  ∀ (s : State) (i ea : DataAddr) (m : IndMode) (n : FsrNum),
    0xF80 ≤ i.toNat → s.params.sfrAt i = some (.ind m n) → s.params.indirect = true → PointsTo s m n ea →
    ∃ post s1, s1 = (if m = .preinc then s.setFsr n ea else s) ∧
      (∀ (c : Cell) (t : State), Loc.settle ⟨c, post⟩ t =
        if m = .postinc then t.setFsr n (t.fsr n + 1#12) else if m = .postdec then t.setFsr n (t.fsr n - 1#12) else t) ∧
      (InRam s ea → locate s i = .ok (⟨.ram ea, post⟩, s1)) ∧
      (∀ r, 0xF80 ≤ ea.toNat → s.params.sfrAt ea = some r → s.params.models r = true → (∀ m' n', r ≠ .ind m' n') →
        locate s i = .ok (⟨.sfr r, post⟩, s1)) ∧
      (∀ m' n', 0xF80 ≤ ea.toNat → s.params.sfrAt ea = some (.ind m' n') → locate s i = .ok (⟨.void, post⟩, s1)) ∧
      (s.params.ramBytes ≤ ea.toNat → ea.toNat < 0xF80 → s.params.unimplData = .readZero →
        locate s i = .ok (⟨.void, post⟩, s1)) ∧
      (∀ e, cellAt s.params ea = .error e → locate s i = .error e) ∧
      (∀ (t : State) (v : Byte), readCell t .void = (0x00#8, t) ∧ writeCell t .void v = t)

/-! ## Byte-oriented and bit-oriented instructions

The clause of these statements over every place of the operand rests on choices that the rules of the instructions do not
make: an indirect operand steps its FSR once, after its use (G3, assumption log 9); a read of PCL sets the latches, a write
of PCL jumps and takes two cycles (G4, log 10); the flags that an instruction computes win over a byte written to STATUS
(D15, log 28). -/

/-- ADDWF, ADDWFC, INCF. -/
def Obligations.FileAdd : Prop :=
  ∀ (s : State) (d : Dest) (a : Access) (f : BitVec 8),
    PutsResult (.addwf d a f) s d a f (fun v _ r st => IsSum s.w v false r st) ∧
    PutsResult (.addwfc d a f) s d a f (fun v _ r st => IsSum s.w v s.status.c r st) ∧
    PutsResult (.incf d a f) s d a f (fun v _ r st => IsSum v 1#8 false r st)

/-- SUBWF, SUBWFB, SUBFWB, DECF, NEGF. -/
def Obligations.FileSubtract : Prop :=
  ∀ (s : State) (d : Dest) (a : Access) (f : BitVec 8),
    PutsResult (.subwf d a f) s d a f (fun v _ r st => IsDifference v s.w false r st) ∧
    PutsResult (.subwfb d a f) s d a f (fun v _ r st => IsDifference v s.w (!s.status.c) r st) ∧
    PutsResult (.subfwb d a f) s d a f (fun v _ r st => IsDifference s.w v (!s.status.c) r st) ∧
    PutsResult (.decf d a f) s d a f (fun v _ r st => IsDifference v 1#8 false r st) ∧
    PutsResult (.negf a f) s .f a f (fun v _ r st => IsDifference 0#8 v false r st)

/-- ANDWF, IORWF, XORWF, COMF, MOVF, bit by bit, and their encodings. -/
def Obligations.FileLogic : Prop :=
  ∀ (s : State) (d : Dest) (a : Access) (f : BitVec 8),
    PutsResult (.andwf d a f) s d a f (fun v st r st' => IsNZ r st st' ∧
      ∀ j, j < 8 → r.getLsbD j = (s.w.getLsbD j && v.getLsbD j)) ∧
    PutsResult (.iorwf d a f) s d a f (fun v st r st' => IsNZ r st st' ∧
      ∀ j, j < 8 → r.getLsbD j = (s.w.getLsbD j || v.getLsbD j)) ∧
    PutsResult (.xorwf d a f) s d a f (fun v st r st' => IsNZ r st st' ∧
      ∀ j, j < 8 → r.getLsbD j = (s.w.getLsbD j != v.getLsbD j)) ∧
    PutsResult (.comf d a f) s d a f (fun v st r st' => IsNZ r st st' ∧
      ∀ j, j < 8 → r.getLsbD j = !v.getLsbD j) ∧
    PutsResult (.movf d a f) s d a f (fun v st r st' => IsNZ r st st' ∧ r = v) ∧
    encode (.andwf d a f) = [0b000101#6 ++ (d.bit ++ (a.bit ++ f))] ∧
    encode (.iorwf d a f) = [0b000100#6 ++ (d.bit ++ (a.bit ++ f))] ∧
    encode (.xorwf d a f) = [0b000110#6 ++ (d.bit ++ (a.bit ++ f))] ∧
    encode (.comf d a f) = [0b000111#6 ++ (d.bit ++ (a.bit ++ f))] ∧
    encode (.movf d a f) = [0b010100#6 ++ (d.bit ++ (a.bit ++ f))]

/-- RLCF, RRCF, RLNCF, RRNCF, SWAPF in numbers, and their encodings. -/
def Obligations.FileRotate : Prop :=
  ∀ (s : State) (d : Dest) (a : Access) (f : BitVec 8),
    PutsResult (.rlcf d a f) s d a f (fun v st r st' =>
      r.toNat = v.toNat * 2 % 256 + s.status.c.toNat ∧ IsNZ r { st with c := decide (v.toNat ≥ 128) } st') ∧
    PutsResult (.rrcf d a f) s d a f (fun v st r st' =>
      r.toNat = v.toNat / 2 + 128 * s.status.c.toNat ∧ IsNZ r { st with c := decide (v.toNat % 2 = 1) } st') ∧
    PutsResult (.rlncf d a f) s d a f (fun v st r st' =>
      r.toNat = v.toNat * 2 % 256 + v.toNat / 128 ∧ IsNZ r st st') ∧
    PutsResult (.rrncf d a f) s d a f (fun v st r st' =>
      r.toNat = v.toNat / 2 + 128 * (v.toNat % 2) ∧ IsNZ r st st') ∧
    PutsResult (.swapf d a f) s d a f (fun v st r st' => r.toNat = v.toNat % 16 * 16 + v.toNat / 16 ∧ st' = st) ∧
    encode (.rlcf d a f) = [0b001101#6 ++ (d.bit ++ (a.bit ++ f))] ∧
    encode (.rrcf d a f) = [0b001100#6 ++ (d.bit ++ (a.bit ++ f))] ∧
    encode (.rlncf d a f) = [0b010001#6 ++ (d.bit ++ (a.bit ++ f))] ∧
    encode (.rrncf d a f) = [0b010000#6 ++ (d.bit ++ (a.bit ++ f))] ∧
    encode (.swapf d a f) = [0b001110#6 ++ (d.bit ++ (a.bit ++ f))]

/-- BCF, BSF, BTG: bit `b`, and the seven other bits as they were read; their encodings. -/
def Obligations.FileBits : Prop :=
  ∀ (s : State) (b : BitVec 3) (a : Access) (f : BitVec 8),
    PutsResult (.bcf b a f) s .f a f (fun v st r st' => st' = st ∧
      ∀ j, j < 8 → r.getLsbD j = if j = b.toNat then false else v.getLsbD j) ∧
    PutsResult (.bsf b a f) s .f a f (fun v st r st' => st' = st ∧
      ∀ j, j < 8 → r.getLsbD j = if j = b.toNat then true else v.getLsbD j) ∧
    PutsResult (.btg b a f) s .f a f (fun v st r st' => st' = st ∧
      ∀ j, j < 8 → r.getLsbD j = if j = b.toNat then !v.getLsbD j else v.getLsbD j) ∧
    encode (.bcf b a f) = [0b1001#4 ++ (b ++ (a.bit ++ f))] ∧
    encode (.bsf b a f) = [0b1000#4 ++ (b ++ (a.bit ++ f))] ∧
    encode (.btg b a f) = [0b0111#4 ++ (b ++ (a.bit ++ f))]

/-- CLRF, SETF, MOVWF, and their encodings. -/
def Obligations.FileStore : Prop :=
  ∀ (s : State) (a : Access) (f : BitVec 8),
    StoresByte (.clrf a f) s a f 0x00#8 (fun st => { st with z := true }) ∧
    StoresByte (.setf a f) s a f 0xFF#8 id ∧
    StoresByte (.movwf a f) s a f s.w id ∧
    encode (.clrf a f) = [0b0110101#7 ++ (a.bit ++ f)] ∧
    encode (.setf a f) = [0b0110100#7 ++ (a.bit ++ f)] ∧
    encode (.movwf a f) = [0b0110111#7 ++ (a.bit ++ f)]

/-- CPFSEQ, CPFSGT, CPFSLT, TSTFSZ, BTFSC, BTFSS, and their encodings. -/
def Obligations.FileTestSkip : Prop :=
  ∀ (s : State) (b : BitVec 3) (a : Access) (f : BitVec 8),
    TestsAndSkips (.cpfseq a f) s a f (fun v => v.toNat = s.w.toNat) ∧
    TestsAndSkips (.cpfsgt a f) s a f (fun v => v.toNat > s.w.toNat) ∧
    TestsAndSkips (.cpfslt a f) s a f (fun v => v.toNat < s.w.toNat) ∧
    TestsAndSkips (.tstfsz a f) s a f (fun v => v.toNat = 0) ∧
    TestsAndSkips (.btfsc b a f) s a f (fun v => v.toNat / 2 ^ b.toNat % 2 = 0) ∧
    TestsAndSkips (.btfss b a f) s a f (fun v => v.toNat / 2 ^ b.toNat % 2 = 1) ∧
    encode (.cpfseq a f) = [0b0110001#7 ++ (a.bit ++ f)] ∧
    encode (.cpfsgt a f) = [0b0110010#7 ++ (a.bit ++ f)] ∧
    encode (.cpfslt a f) = [0b0110000#7 ++ (a.bit ++ f)] ∧
    encode (.tstfsz a f) = [0b0110011#7 ++ (a.bit ++ f)] ∧
    encode (.btfsc b a f) = [0b1011#4 ++ (b ++ (a.bit ++ f))] ∧
    encode (.btfss b a f) = [0b1010#4 ++ (b ++ (a.bit ++ f))]

/-- DECFSZ, DECFSNZ, INCFSZ, INFSNZ, and their encodings. -/
def Obligations.FileCountSkip : Prop :=
  ∀ (s : State) (d : Dest) (a : Access) (f : BitVec 8),
    CountsAndSkips (.decfsz d a f) s d a f (fun v => BitVec.ofNat 8 (v.toNat + 255)) (fun r => r.toNat = 0) ∧
    CountsAndSkips (.decfsnz d a f) s d a f (fun v => BitVec.ofNat 8 (v.toNat + 255)) (fun r => r.toNat ≠ 0) ∧
    CountsAndSkips (.incfsz d a f) s d a f (fun v => BitVec.ofNat 8 (v.toNat + 1)) (fun r => r.toNat = 0) ∧
    CountsAndSkips (.infsnz d a f) s d a f (fun v => BitVec.ofNat 8 (v.toNat + 1)) (fun r => r.toNat ≠ 0) ∧
    encode (.decfsz d a f) = [0b001011#6 ++ (d.bit ++ (a.bit ++ f))] ∧
    encode (.decfsnz d a f) = [0b010011#6 ++ (d.bit ++ (a.bit ++ f))] ∧
    encode (.incfsz d a f) = [0b001111#6 ++ (d.bit ++ (a.bit ++ f))] ∧
    encode (.infsnz d a f) = [0b010010#6 ++ (d.bit ++ (a.bit ++ f))]

/-- How many words a skip passes over, by the word after the skip instruction, and what stops it: a word that is no
instruction, a bad second word, and a word above the program memory that exists. -/
def Obligations.SkipLength : Prop :=
  ∀ (s : State) (w1 w2 : Word),
    (fetchWord s (s.pc + 2#21) = .ok w1 →
      (∀ i, firstWord w1 = .one i → skipWords s = .ok 1) ∧
      (firstWord w1 = .reserved → skipWords s = .error (.reservedInstruction (s.pc + 2#21) w1)) ∧
      (∀ t, firstWord w1 = .two t → fetchWord s (s.pc + 2#21 + 2#21) = .ok w2 →
        skipWords s = if (secondWord t w2).isSome then .ok 2 else .error (.malformedSecondWord (s.pc + 2#21) w1 w2)) ∧
      (∀ t, firstWord w1 = .two t → s.params.progBytes ≤ (s.pc + 4#21).toNat → s.params.unimplProg = .fault →
        skipWords s = .error (.unimplementedProgram (s.pc + 4#21))) ∧
      (∀ t, firstWord w1 = .two t → s.params.progBytes ≤ (s.pc + 4#21).toNat → s.params.unimplProg = .readZero →
        skipWords s = .error (.malformedSecondWord (s.pc + 2#21) w1 0#16))) ∧
    (s.params.progBytes ≤ (s.pc + 2#21).toNat → s.params.unimplProg = .fault →
      skipWords s = .error (.unimplementedProgram (s.pc + 2#21))) ∧
    (s.params.progBytes ≤ (s.pc + 2#21).toNat → s.params.unimplProg = .readZero → skipWords s = .ok 1)

/-- What reading a file operand gives and changes: nothing but the pc moved on, an FSR stepped, the latches at a read of
PCL, and the counter of free values at a read of INTCON. -/
def Obligations.OperandRead : Prop :=
  ∀ (s : State) (a : Access) (f : BitVec 8),
    (InRam s (effectiveAddr s a f) → fetchOperand s a f =
      .ok (⟨.ram (effectiveAddr s a f), none⟩, s.data.read (effectiveAddr s a f).toNat, s.advance 2#21)) ∧
    (∀ l v s1, fetchOperand s a f = .ok (l, v, s1) →
      { s1 with fsr0 := s.fsr0, fsr1 := s.fsr1, fsr2 := s.fsr2, pclath := s.pclath, pclatu := s.pclatu,
                freeIdx := s.freeIdx } = s.advance 2#21 ∧
      (∀ ea, l.cell = .ram ea → v = s.data.read ea.toNat ∧ InRam s ea) ∧
      (l.cell = .void → v = 0x00#8))

/-- MOVFF between all places that accesses reach, the source's FSR stepped before the destination is located (log 9);
written out between bytes of general-purpose memory and WREG. -/
def Obligations.MovffCopies : Prop :=
  ∀ (s : State) (fs fd : DataAddr),
    (fd.toNat < 0xF80 ∨ s.params.sfrAt fd ∉ [some .pcl, some .tosu, some .tosh, some .tosl]) →
    (∀ l s1 m s2, locate (s.advance 4#21) fs = .ok (l, s1) → locate (l.settle (readCell s1 l.cell).2) fd = .ok (m, s2) →
      ∃ t, t = (m.settle (writeCell s2 m.cell (readCell s1 l.cell).1)).tick 2 ∧ exec (.movff fs fd) s = .next t ∧
        ∀ k : Nat, (∀ ea, m.cell = .ram ea → k ≠ ea.toNat) → t.data.read k = s.data.read k) ∧
    (InRam s fs → InRam s fd →
      exec (.movff fs fd) s = .next { s with
        pc := s.pc + 4#21, cycles := s.cycles + 2, data := s.data.write fd.toNat (s.data.read fs.toNat) }) ∧
    (InRam s fs → 0xF80 ≤ fd.toNat → s.params.sfrAt fd = some .wreg →
      exec (.movff fs fd) s = .next { s with
        pc := s.pc + 4#21, cycles := s.cycles + 2, w := s.data.read fs.toNat }) ∧
    (0xF80 ≤ fs.toNat → s.params.sfrAt fs = some .wreg → InRam s fd →
      exec (.movff fs fd) s = .next { s with
        pc := s.pc + 4#21, cycles := s.cycles + 2, data := s.data.write fd.toNat s.w }) ∧
    (∀ e, locate (s.advance 4#21) fs = .error e → exec (.movff fs fd) s = .fault e) ∧
    (∀ l s1 e, locate (s.advance 4#21) fs = .ok (l, s1) → locate (l.settle (readCell s1 l.cell).2) fd = .error e →
      exec (.movff fs fd) s = .fault e)

/-- MOVFF refuses PCL and the bytes of TOS as its destination, before anything else is checked. -/
def Obligations.MovffForbidden : Prop :=
  ∀ (s : State) (fs fd : DataAddr), 0xF80 ≤ fd.toNat →
    s.params.sfrAt fd ∈ [some .pcl, some .tosu, some .tosh, some .tosl] →
    exec (.movff fs fd) s = .fault (.forbiddenMovffDest fd)

/-- MULWF and MULLW: the exact product in PRODH:PRODL, nothing else but the pc; their encodings. -/
def Obligations.Multiply : Prop :=
  ∀ (s : State) (a : Access) (f k : BitVec 8),
    (∀ l v s1, fetchOperand s a f = .ok (l, v, s1) →
      ∃ h lo : Byte, 256 * h.toNat + lo.toNat = s.w.toNat * v.toNat ∧ (l.settle s1).data = s.data ∧
        exec (.mulwf a f) s = .next ({ l.settle s1 with prodh := h, prodl := lo }.tick 1)) ∧
    (InRam s (effectiveAddr s a f) →
      ∃ h lo : Byte, 256 * h.toNat + lo.toNat = s.w.toNat * (s.data.read (effectiveAddr s a f).toNat).toNat ∧
        exec (.mulwf a f) s = .next { s with
          pc := s.pc + 2#21, cycles := s.cycles + 1, prodh := h, prodl := lo }) ∧
    (∀ e, fetchOperand s a f = .error e → exec (.mulwf a f) s = .fault e) ∧
    (∃ h lo : Byte, 256 * h.toNat + lo.toNat = s.w.toNat * k.toNat ∧
      exec (.mullw k) s = .next { s with pc := s.pc + 2#21, cycles := s.cycles + 1, prodh := h, prodl := lo }) ∧
    encode (.mulwf a f) = [0b0000001#7 ++ (a.bit ++ f)] ∧ encode (.mullw k) = [0b00001101#8 ++ k]

/-! ## Control instructions -/

/-- The eight conditional branches: the target in integers when the flag is as the mnemonic says, else the next
instruction; their encodings. -/
def Obligations.ConditionalBranches : Prop :=
  ∀ (s : State) (n op : BitVec 8) (i : Instr) (c : Bool),
    (i, op, c) ∈ [(Instr.bc n, 0xE2#8, s.status.c), (.bn n, 0xE6#8, s.status.n), (.bnc n, 0xE3#8, !s.status.c),
      (.bnn n, 0xE7#8, !s.status.n), (.bnov n, 0xE5#8, !s.status.ov), (.bnz n, 0xE1#8, !s.status.z),
      (.bov n, 0xE4#8, s.status.ov), (.bz n, 0xE0#8, s.status.z)] →
    (c = true → ∃ t, IsAddr t (s.pc.toNat + 2 + 2 * n.toInt) ∧
      exec i s = .next { s with pc := t, cycles := s.cycles + 2 }) ∧
    (c = false → exec i s = .next { s with pc := s.pc + 2#21, cycles := s.cycles + 1 }) ∧
    encode i = [op ++ n]

/-- BRA and GOTO, and their encodings. -/
def Obligations.Jumps : Prop :=
  ∀ (s : State) (n : BitVec 11) (k : BitVec 20),
    (∃ t, IsAddr t (s.pc.toNat + 2 + 2 * n.toInt) ∧ exec (.bra n) s = .next { s with pc := t, cycles := s.cycles + 2 }) ∧
    (∃ t, IsAddr t (2 * k.toNat) ∧ exec (.goto k) s = .next { s with pc := t, cycles := s.cycles + 2 }) ∧
    encode (.bra n) = [0b11010#5 ++ n] ∧
    encode (.goto k) = [0b11101111#8 ++ k.extractLsb' 0 8, 0b1111#4 ++ k.extractLsb' 8 12]

/-- CALL, RCALL and PUSH with room on the return stack. -/
def Obligations.CallsAndPush : Prop :=
  ∀ (s : State) (fast : Bool) (k : BitVec 20) (n : BitVec 11), s.stack.length < s.params.stackDepth →
    (∃ t, IsAddr t (2 * k.toNat) ∧ exec (.call fast k) s = .next { s with
      pc := t
      cycles := s.cycles + 2
      stack := s.stack ++ [s.pc + 4#21]
      ws := if fast then s.w else s.ws
      statuss := if fast then s.status else s.statuss
      bsrs := if fast then s.bsr else s.bsrs }) ∧
    (∃ t, IsAddr t (s.pc.toNat + 2 + 2 * n.toInt) ∧ exec (.rcall n) s = .next { s with
      pc := t, cycles := s.cycles + 2, stack := s.stack ++ [s.pc + 2#21] }) ∧
    exec .push s = .next { s with
      pc := s.pc + 2#21, cycles := s.cycles + 1, stack := s.stack ++ [s.pc + 2#21] }

/-- POP, RETLW and RETURN with an address on the return stack. A popped address loads the pc with bit 0 taken as 0. -/
def Obligations.PopAndReturns : Prop :=
  ∀ (s : State) (rest : List ProgAddr) (v : ProgAddr) (k : BitVec 8) (fast : Bool), s.stack = rest ++ [v] →
    exec .pop s = .next { s with pc := s.pc + 2#21, cycles := s.cycles + 1, stack := rest } ∧
    ∃ t : ProgAddr, t.toNat = v.toNat - v.toNat % 2 ∧
      exec (.retlw k) s = .next { s with pc := t, cycles := s.cycles + 2, stack := rest, w := k } ∧
      exec (.ret fast) s = .next { s with
        pc := t
        cycles := s.cycles + 2
        stack := rest
        w := if fast then s.ws else s.w
        status := if fast then s.statuss else s.status
        bsr := if fast then s.bsrs else s.bsr }

/-- RETFIE with an address on the return stack: GIEL is set in a low-priority handler, GIEH otherwise. -/
def Obligations.ReturnFromInterrupt : Prop :=
  ∀ (s : State) (rest : List ProgAddr) (v : ProgAddr) (fast : Bool), s.stack = rest ++ [v] →
    ∃ t : ProgAddr, t.toNat = v.toNat - v.toNat % 2 ∧
      exec (.retfie fast) s = .next { s with
        pc := t
        cycles := s.cycles + 2
        stack := rest
        giel := if s.intLevel = .low then true else s.giel
        gieh := if s.intLevel = .low then s.gieh else true
        intLevel := if s.intLevel = .highOverLow then .low else .none
        w := if fast then s.ws else s.w
        status := if fast then s.statuss else s.status
        bsr := if fast then s.bsrs else s.bsr }

/-- A push onto the full return stack, by an instruction or by the entry into an interrupt handler, and a pop of the empty
one stop the machine. -/
def Obligations.StackFaults : Prop :=
  ∀ (s : State) (fast : Bool) (k : BitVec 20) (n : BitVec 11) (l : BitVec 8),
    (s.params.stackDepth ≤ s.stack.length →
      exec (.call fast k) s = .fault (.stackOverflow (s.pc + 4#21)) ∧
      exec (.rcall n) s = .fault (.stackOverflow (s.pc + 2#21)) ∧
      exec .push s = .fault (.stackOverflow (s.pc + 2#21))) ∧
    (∀ (x : BoundaryInput) (rest : List BoundaryInput), s.params.stackDepth ≤ s.stack.length →
      s.inputs = x :: rest → x.reset = none → (x.wdtTimeout = false ∨ s.params.wdtEnabled = false) →
      s.params.interrupts = true → s.gieh = true →
      (x.irqHigh = true ∨ (x.irqLow = true ∧ (s.params.ipen = false ∨ s.giel = true))) →
      step s = .fault (.stackOverflow s.pc)) ∧
    (s.stack = [] →
      exec .pop s = .fault .stackUnderflow ∧ exec (.retlw l) s = .fault .stackUnderflow ∧
      exec (.ret fast) s = .fault .stackUnderflow ∧ exec (.retfie fast) s = .fault .stackUnderflow)

/-- CALL with s = 1, then RETURN with s = 1 in whatever state the subroutine leaves, if it leaves the return stack and the
fast-save registers as it found them: execution goes on after the CALL with W, STATUS and BSR as before it. -/
def Obligations.FastCallReturns : Prop :=
  ∀ (s t u : State) (k : BitVec 20), s.pc.getLsbD 0 = false → exec (.call true k) s = .next t →
    u.stack = t.stack → u.ws = t.ws → u.statuss = t.statuss → u.bsrs = t.bsrs →
    exec (.ret true) u = .next { u with
      pc := s.pc + 4#21, cycles := u.cycles + 2, stack := s.stack, w := s.w, status := s.status, bsr := s.bsr }

/-- CLRWDT, SLEEP, after which the pc stands past it (D25, log 16), and both encodings of NOP; their words.
`wdtClearedAt` is the model's own mark (log 17). -/
def Obligations.ClrwdtSleepNops : Prop :=
  ∀ (s : State) (x : BitVec 12),
    exec .clrwdt s = .next { s with
      pc := s.pc + 2#21, cycles := s.cycles + 1, wdt := 0, wdtps := 0, wdtClearedAt := s.cycles
      toBit := true, pdBit := true } ∧
    exec .sleep s = .next { s with
      pc := s.pc + 2#21, cycles := s.cycles + 1, wdt := 0, wdtps := 0, wdtClearedAt := s.cycles
      toBit := true, pdBit := false, asleep := true } ∧
    exec .nop s = .next { s with pc := s.pc + 2#21, cycles := s.cycles + 1 } ∧
    exec (.nopF x) s = .next { s with pc := s.pc + 2#21, cycles := s.cycles + 1 } ∧
    encode .clrwdt = [0x0004#16] ∧ encode .sleep = [0x0003#16] ∧ encode .nop = [0x0000#16] ∧
    encode (.nopF x) = [0xF#4 ++ x]

/-- DAW on every W, DC and C: both digits' adjustment, the high digit tested after the low digit's carry; C is never
cleared. -/
def Obligations.DecimalAdjust : Prop :=
  ∀ (s : State) (t u : Nat),
    t = s.w.toNat + (if s.w.toNat % 16 > 9 ∨ s.status.dc = true then 6 else 0) →
    u = t + (if t / 16 > 9 ∨ s.status.c = true then 96 else 0) →
    ∃ r : Byte, r.toNat = u % 256 ∧
      exec .daw s = .next { s with
        pc := s.pc + 2#21
        cycles := s.cycles + 1
        w := r
        status := { s.status with c := s.status.c || decide (u > 255) } }

/-- DAW after the addition of two packed decimal numbers, with or without a carry in: W and C are the decimal sum. -/
def Obligations.DecimalAdjustAfterAdd : Prop :=
  ∀ (s : State) (x1 x0 y1 y0 : Fin 10) (cin : Bool),
    s.w = (add8 (bcdByte x1 x0) (bcdByte y1 y0) cin).value →
    s.status = (add8 (bcdByte x1 x0) (bcdByte y1 y0) cin).flags →
    ∃ (t : State) (z1 z0 : Fin 10), exec .daw s = .next t ∧ t.w = bcdByte z1 z0 ∧
      100 * t.status.c.toNat + 10 * z1.val + z0.val =
        10 * x1.val + x0.val + (10 * y1.val + y0.val) + cin.toNat

/-- RESET: the pc, the return stack, the sleep state and the nesting as R321 fixes them, every other element as the column of
`RESET_STATE` for MCLR says. With the default table, written out: what it sets, and everything else as before; the flags and
the holding registers may be anything; `wdtClearedAt` is the model's own mark (log 17). -/
def Obligations.SoftwareReset : Prop :=
  ∀ s : State, ∃ t, exec .reset s = .next t ∧
    t.pc.toNat = s.params.resetVector.toNat - s.params.resetVector.toNat % 2 ∧
    t.stack = [] ∧ t.asleep = false ∧ t.intLevel = .none ∧ t.cycles = s.cycles + 1 ∧
    t.params = s.params ∧ t.prog = s.prog ∧ t.inputs = s.inputs ∧
    ResetBy s.params.resetState.mclr s t ∧
    (s.params.resetState = defaultResetState →
      t = { s with
        pc := t.pc, status := t.status, hold := t.hold, freeIdx := t.freeIdx, cycles := s.cycles + 1
        stack := [], asleep := false, intLevel := .none, gieh := false, giel := false
        bsr := 0#4, tblptr := 0#21, tablat := 0#8, pclath := 0#8, pclatu := 0#5, wdt := 0, wdtps := 0
        wdtClearedAt := s.cycles, fsr0 := t.fsr0, fsr1 := t.fsr1, fsr2 := t.fsr2 } ∧
      t.fsr0.toNat = s.fsr0.toNat % 256 ∧ t.fsr1.toNat = s.fsr1.toNat % 256 ∧ t.fsr2.toNat = s.fsr2.toNat % 256)

/-! ## Literal instructions -/

/-- ADDLW and SUBLW. -/
def Obligations.LiteralArithmetic : Prop :=
  ∀ (s : State) (k : BitVec 8),
    (∃ r st, IsSum s.w k false r st ∧ exec (.addlw k) s = .next { s with
      pc := s.pc + 2#21, cycles := s.cycles + 1, w := r, status := st }) ∧
    (∃ r st, IsDifference k s.w false r st ∧ exec (.sublw k) s = .next { s with
      pc := s.pc + 2#21, cycles := s.cycles + 1, w := r, status := st })

/-- ANDLW, IORLW, XORLW, bit by bit, and their encodings. -/
def Obligations.LiteralLogic : Prop :=
  ∀ (s : State) (k op : BitVec 8) (i : Instr) (g : Bool → Bool → Bool),
    (i, op, g) ∈ [(Instr.andlw k, 0x0B#8, and), (.iorlw k, 0x09#8, or), (.xorlw k, 0x0A#8, xor)] →
    (∃ r st, (∀ j, j < 8 → r.getLsbD j = g (s.w.getLsbD j) (k.getLsbD j)) ∧ IsNZ r s.status st ∧
      exec i s = .next { s with pc := s.pc + 2#21, cycles := s.cycles + 1, w := r, status := st }) ∧
    encode i = [op ++ k]

/-- MOVLW, MOVLB and LFSR, and their encodings; LFSR of register number 3, which no encoding gives, stops
(log 19). -/
def Obligations.LiteralMoves : Prop :=
  ∀ (s : State) (k : BitVec 8) (a : BitVec 12),
    exec (.movlw k) s = .next { s with pc := s.pc + 2#21, cycles := s.cycles + 1, w := k } ∧
    (∃ b : BitVec 4, b.toNat = k.toNat % 16 ∧
      exec (.movlb k) s = .next { s with pc := s.pc + 2#21, cycles := s.cycles + 1, bsr := b }) ∧
    exec (.lfsr 0#2 a) s = .next { s with pc := s.pc + 4#21, cycles := s.cycles + 2, fsr0 := a } ∧
    exec (.lfsr 1#2 a) s = .next { s with pc := s.pc + 4#21, cycles := s.cycles + 2, fsr1 := a } ∧
    exec (.lfsr 2#2 a) s = .next { s with pc := s.pc + 4#21, cycles := s.cycles + 2, fsr2 := a } ∧
    (∃ w, firstWord w = .reserved ∧ exec (.lfsr 3#2 a) s = .fault (.reservedInstruction s.pc w)) ∧
    encode (.movlw k) = [0x0E#8 ++ k] ∧ encode (.movlb k) = [0x01#8 ++ k] ∧
    ∀ n, encode (.lfsr n a) = [0xEE#8 ++ (0b00#2 ++ (n ++ a.extractLsb' 8 4)), 0xF0#8 ++ a.extractLsb' 0 8]

/-! ## Table instructions -/

/-- The four forms of TBLRD: the byte read, the pointer afterwards; above the program memory that exists, a fault that
carries the address of the read, or the byte 0 (D8, log 27); their words. -/
def Obligations.TableReads : Prop :=
  ∀ (s : State) (i : Instr) (p q : ProgAddr) (word : Word),
    ((i = .tblrd ∧ word = 0x0008#16 ∧ p = s.tblptr ∧ q = s.tblptr) ∨
      (i = .tblrdPostInc ∧ word = 0x0009#16 ∧ p = s.tblptr ∧ IsAddr q (s.tblptr.toNat + 1)) ∨
      (i = .tblrdPostDec ∧ word = 0x000A#16 ∧ p = s.tblptr ∧ IsAddr q (s.tblptr.toNat - 1)) ∨
      (i = .tblrdPreInc ∧ word = 0x000B#16 ∧ IsAddr p (s.tblptr.toNat + 1) ∧ q = p)) →
    encode i = [word] ∧
    (p.toNat < s.params.progBytes → exec i s = .next { s with
      pc := s.pc + 2#21, cycles := s.cycles + 2, tablat := s.prog.read p.toNat, tblptr := q }) ∧
    (s.params.progBytes ≤ p.toNat → s.params.unimplProg = .fault → exec i s = .fault (.unimplementedProgram p)) ∧
    (s.params.progBytes ≤ p.toNat → s.params.unimplProg = .readZero → exec i s = .next { s with
      pc := s.pc + 2#21, cycles := s.cycles + 2, tablat := 0x00#8, tblptr := q })

/-- The four forms of TBLWT: TABLAT in the holding register that the low three bits of the pointer name, the seven others
as before, the pointer afterwards, and nothing else (program memory is not written: D20, log 23); their words. -/
def Obligations.TableWrites : Prop :=
  ∀ (s : State) (i : Instr) (p q : ProgAddr) (word : Word),
    ((i = .tblwt ∧ word = 0x000C#16 ∧ p = s.tblptr ∧ q = s.tblptr) ∨
      (i = .tblwtPostInc ∧ word = 0x000D#16 ∧ p = s.tblptr ∧ IsAddr q (s.tblptr.toNat + 1)) ∨
      (i = .tblwtPostDec ∧ word = 0x000E#16 ∧ p = s.tblptr ∧ IsAddr q (s.tblptr.toNat - 1)) ∨
      (i = .tblwtPreInc ∧ word = 0x000F#16 ∧ IsAddr p (s.tblptr.toNat + 1) ∧ q = p)) →
    encode i = [word] ∧
    ∃ h : Holding, (∀ j : BitVec 3, h.get j = if j.toNat = p.toNat % 8 then s.tablat else s.hold.get j) ∧
      exec i s = .next { s with pc := s.pc + 2#21, cycles := s.cycles + 2, hold := h, tblptr := q }

/-! ## Interrupts, sleep, resets -/

/-- The step that takes an interrupt: the high-priority one when both ask. -/
def Obligations.InterruptTaken : Prop :=
  ∀ (s : State) (x : BoundaryInput) (rest : List BoundaryInput), s.inputs = x :: rest → x.reset = none →
    x.wdtTimeout = false → x.wdtCount = none → s.params.interrupts = true → s.gieh = true →
    s.stack.length < s.params.stackDepth →
    ((x.irqHigh = true ∨ (x.irqLow = true ∧ s.params.ipen = false)) →
      ∃ t, step s = .next t ∧
        t = { s with
          inputs := rest, pc := t.pc, stack := s.stack ++ [s.pc], gieh := false
          ws := s.w, statuss := s.status, bsrs := s.bsr, asleep := false
          intLevel := if s.intLevel = .low then .highOverLow else .high
          freeIdx := t.freeIdx, cycles := t.cycles } ∧
        t.pc.toNat = s.params.vecHigh.toNat - s.params.vecHigh.toNat % 2) ∧
    (x.irqHigh = false → x.irqLow = true → s.params.ipen = true → s.giel = true →
      ∃ t, step s = .next t ∧
        t = { s with
          inputs := rest, pc := t.pc, stack := s.stack ++ [s.pc], giel := false
          ws := s.w, statuss := s.status, bsrs := s.bsr, asleep := false, intLevel := .low
          freeIdx := t.freeIdx, cycles := t.cycles } ∧
        t.pc.toNat = s.params.vecLow.toNat - s.params.vecLow.toNat % 2)

/-- A masked request leaves an awake core to its instruction: with GIEH = 0 any request, with GIEL = 0 a low-priority one;
and so does a watchdog time-out with the watchdog disabled, or before `WDT_PERIOD` has passed. -/
def Obligations.InterruptMasked : Prop :=
  ∀ (s : State) (x : BoundaryInput) (rest : List BoundaryInput) (i : Instr) (n : Nat), s.inputs = x :: rest →
    x.reset = none → x.wdtCount = none → s.asleep = false →
    (x.wdtTimeout = false ∨ s.params.wdtEnabled = false ∨ s.cycles - s.wdtClearedAt < s.params.wdtPeriod) →
    (s.gieh = false ∨ (x.irqHigh = false ∧ s.params.ipen = true ∧ s.giel = false)) →
    fetchInstr s s.pc = .ok (i, n) → step s = exec i { s with inputs := rest }

/-- A handler that ends with RETFIE 1, and leaves the return stack, the fast-save registers and the nesting as it found
them, gives W, STATUS, BSR, the return stack, the enable bit of its level and the pc back as they were. -/
def Obligations.InterruptTransparent : Prop :=
  ∀ (s t u : State) (x : BoundaryInput) (rest : List BoundaryInput), s.inputs = x :: rest → x.reset = none →
    x.wdtTimeout = false → x.wdtCount = none → accepted s x ≠ none → s.pc.getLsbD 0 = false →
    (s.intLevel = .none ∨ (s.intLevel = .low ∧ accepted s x = some .high)) → step s = .next t →
    u.stack = t.stack → u.ws = t.ws → u.statuss = t.statuss → u.bsrs = t.bsrs → u.intLevel = t.intLevel →
    ∃ r, exec (.retfie true) u = .next r ∧ r.pc = s.pc ∧ r.w = s.w ∧ r.status = s.status ∧ r.bsr = s.bsr ∧
      r.stack = s.stack ∧ r.intLevel = s.intLevel ∧
      (accepted s x = some .high → r.gieh = s.gieh ∧ r.giel = u.giel) ∧
      (accepted s x = some .low → r.giel = s.giel ∧ r.gieh = u.gieh) ∧ r.data = u.data

/-- Asleep: with no move of the environment, or one that asks for nothing, a step changes nothing; a watchdog time-out wakes
the core and clears TO, a request that is not accepted wakes it and does not; execution goes on at the pc.
That a time-out comes before any request at the same boundary is a DESIGN CHOICE (log 13). -/
def Obligations.SleepAndWakeUp : Prop :=
  ∀ (s : State) (x : BoundaryInput) (rest : List BoundaryInput), s.asleep = true →
    (s.inputs = [] → step s = .next s) ∧
    (s.inputs = x :: rest → x.reset = none →
      (x.wdtTimeout = true → s.params.wdtEnabled = true →
        ∃ t, step s = .next t ∧ (x.wdtCount = none → t.wdt = s.wdt ∧ t.wdtps = s.wdtps) ∧
          t = { s with
            inputs := rest, toBit := false, asleep := false
            wdt := t.wdt, wdtps := t.wdtps, freeIdx := t.freeIdx, cycles := t.cycles }) ∧
      ((x.wdtTimeout = false ∨ s.params.wdtEnabled = false) → s.params.interrupts = true →
        (s.gieh = false ∨ (x.irqHigh = false ∧ s.params.ipen = true ∧ s.giel = false)) →
        (x.irqHigh = true ∨ x.irqLow = true) →
        ∃ t, step s = .next t ∧ (x.wdtCount = none → t.wdt = s.wdt ∧ t.wdtps = s.wdtps) ∧
          t = { s with
            inputs := rest, asleep := false
            wdt := t.wdt, wdtps := t.wdtps, freeIdx := t.freeIdx, cycles := t.cycles }) ∧
      ((x.wdtTimeout = false ∨ s.params.wdtEnabled = false) →
        (s.params.interrupts = false ∨ (x.irqHigh = false ∧ x.irqLow = false)) →
        ∃ t, step s = .next t ∧ (x.wdtCount = none → t.wdt = s.wdt ∧ t.wdtps = s.wdtps) ∧
          t = { s with inputs := rest, wdt := t.wdt, wdtps := t.wdtps }))

/-- A reset from outside comes before every other move of the environment, and a watchdog time-out of an awake core after
`WDT_PERIOD` is a reset too: the pc, the return stack, the sleep state and the nesting as R321 fixes them, every other
element as the kind's column of `RESET_STATE` says. With the default table, written out: what all kinds set, and what each
kind does to TO, PD and the elements that only power-on changes. That a reset from outside
comes before a time-out at the same boundary is a DESIGN CHOICE (log 13); that a reset comes before an interrupt is R286. -/
def Obligations.ExternalResets : Prop :=
  ∀ (s : State) (x : BoundaryInput) (rest : List BoundaryInput) (k : ResetKind), s.inputs = x :: rest →
    ((k = .powerOn ∧ x.reset = some .powerOn) ∨ (k = .mclr ∧ x.reset = some .mclr) ∨
      (k = .wdt ∧ x.reset = none ∧ x.wdtTimeout = true ∧ s.params.wdtEnabled = true ∧ s.asleep = false ∧
        s.params.wdtPeriod ≤ s.cycles - s.wdtClearedAt)) →
    ∃ t, step s = .next t ∧ t.inputs = rest ∧ t.prog = s.prog ∧ t.params = s.params ∧
      t.pc.toNat = s.params.resetVector.toNat - s.params.resetVector.toNat % 2 ∧
      t.stack = [] ∧ t.asleep = false ∧ t.intLevel = .none ∧
      (k = .powerOn → ResetBy s.params.resetState.powerOn (countWdt s x) t) ∧
      (k = .mclr → s.asleep = true → ResetBy s.params.resetState.mclrAsleep (countWdt s x) t) ∧
      (k = .mclr → s.asleep = false → ResetBy s.params.resetState.mclr (countWdt s x) t) ∧
      (k = .wdt → ResetBy s.params.resetState.wdt (countWdt s x) t) ∧
      (s.params.resetState = defaultResetState →
        t.gieh = false ∧ t.giel = false ∧
        t.bsr = 0#4 ∧ t.tblptr = 0#21 ∧ t.tablat = 0#8 ∧ t.pclath = 0#8 ∧ t.pclatu = 0#5 ∧
        t.wdt = 0 ∧ t.wdtps = 0 ∧
        t.fsr0.toNat < 256 ∧ t.fsr1.toNat < 256 ∧ t.fsr2.toNat < 256 ∧
        (k = .powerOn → t.toBit = true ∧ t.pdBit = true) ∧
        (k = .mclr → s.asleep = true → t.toBit = true ∧ t.pdBit = false) ∧
        (k = .mclr → s.asleep = false → t.toBit = s.toBit ∧ t.pdBit = s.pdBit) ∧
        (k = .wdt → t.toBit = false ∧ t.pdBit = true) ∧
        (k ≠ .powerOn → t.w = s.w ∧ t.data = s.data ∧ t.prodh = s.prodh ∧ t.prodl = s.prodl ∧
          t.ws = s.ws ∧ t.statuss = s.statuss ∧ t.bsrs = s.bsrs ∧
          t.fsr0.toNat = s.fsr0.toNat % 256 ∧ t.fsr1.toNat = s.fsr1.toNat % 256 ∧
          t.fsr2.toNat = s.fsr2.toNat % 256))

/-- The state after reset. -/
def Obligations.ResetState : Prop :=
  State.reset.pc = 0#21 ∧ State.reset.stack = [] ∧ State.reset.asleep = false ∧ State.reset.intLevel = .none ∧
  State.reset.gieh = false ∧ State.reset.giel = false ∧ State.reset.toBit = true ∧ State.reset.pdBit = true ∧
  State.reset.bsr = 0#4 ∧ State.reset.tblptr = 0#21 ∧ State.reset.tablat = 0#8 ∧ State.reset.pclath = 0#8 ∧
  State.reset.pclatu = 0#5 ∧ State.reset.data = [] ∧ State.reset.prog = [] ∧ State.reset.inputs = []
end

