-- ==== Sys2Proof/Laws/Memory.lean ====
section
/-! SUPPORT. Every memory operation keeps the canonical form, and listed addresses stay below a bound. -/

namespace Sys2Proof.Machine

/-- An entry of a memory that was written is the byte written or an old entry. -/
theorem Memory.mem_write {m : Memory} {k : Nat} {b : Byte} {c : Host.Cell} (h : c ∈ m.write k b) :
    (c = (k, b) ∧ b ≠ Memory.unlisted) ∨ c ∈ m := by
  induction m with
  | nil =>
    simp only [Memory.write] at h
    split at h
    · exact .inr h
    · next hb => exact .inl ⟨by simpa using h, hb⟩
  | cons x m ih =>
    obtain ⟨a, v⟩ := x
    simp only [Memory.write] at h
    split at h <;> (try split at h) <;> (try split at h) <;> simp_all
    · tauto
    · tauto

/-- What is written is no unlisted value, and stands at rising addresses: the write keeps the canonical form. -/
theorem Memory.wf_write {m : Memory} (h : m.wf) (k : Nat) (b : Byte) : (m.write k b).wf := by
  obtain ⟨hp, hv⟩ := h
  refine ⟨?_, fun c hc => ?_⟩
  · clear hv
    induction m with
    | nil => simp only [Memory.write]; split <;> simp
    | cons x m ih =>
      obtain ⟨a, v⟩ := x
      rw [List.pairwise_cons] at hp
      simp only [Memory.write]
      split
      · split
        · exact List.pairwise_cons.2 hp
        · next hk _ =>
          refine List.pairwise_cons.2 ⟨fun y hy => ?_, List.pairwise_cons.2 hp⟩
          rcases List.mem_cons.1 hy with rfl | hy
          · exact hk
          · exact Nat.lt_trans hk (hp.1 y hy)
      · split
        · next hk =>
          split
          · exact hp.2
          · exact List.pairwise_cons.2 ⟨fun y hy => hk ▸ hp.1 y hy, hp.2⟩
        · next hk hk' =>
          refine List.pairwise_cons.2 ⟨fun y hy => ?_, ih hp.2⟩
          rcases Memory.mem_write hy with ⟨rfl, -⟩ | hy
          · show a < k
            omega
          · exact hp.1 y hy
  · rcases Memory.mem_write hc with ⟨rfl, hb⟩ | hc
    · exact hb
    · exact hv c hc

/-- A write below a bound keeps every listed address below it. -/
theorem Memory.below_write {m : Memory} {n k : Nat} (h : m.below n) (hk : k < n) (b : Byte) : (m.write k b).below n := by
  intro c hc
  rcases Memory.mem_write hc with ⟨rfl, -⟩ | hc
  · exact hk
  · exact h c hc

theorem Memory.wf_nil : Memory.wf [] := ⟨List.Pairwise.nil, nofun⟩

theorem Memory.below_nil (n : Nat) : Memory.below [] n := nofun

/-- A tabulated memory has the canonical form. -/
theorem Memory.wf_tabulate (n : Nat) (f : Nat → Byte) : (Memory.tabulate n f).wf := by
  constructor
  · refine List.Pairwise.filterMap _ (fun a b hab x hx y hy => ?_) List.pairwise_lt_range
    simp only [Option.ite_none_left_eq_some, Option.some.injEq] at hx hy
    obtain ⟨-, rfl⟩ := hx
    obtain ⟨-, rfl⟩ := hy
    exact hab
  · intro c hc
    simp only [Memory.tabulate, List.mem_filterMap, Option.ite_none_left_eq_some, Option.some.injEq] at hc
    obtain ⟨a, -, ha, rfl⟩ := hc
    exact ha

/-- A tabulated memory lists addresses below its size only. -/
theorem Memory.below_tabulate (n : Nat) (f : Nat → Byte) : (Memory.tabulate n f).below n := by
  intro c hc
  simp only [Memory.tabulate, List.mem_filterMap, List.mem_range, Option.ite_none_left_eq_some,
    Option.some.injEq] at hc
  obtain ⟨a, ha, -, rfl⟩ := hc
  exact ha

/-- A memory made of cells has the canonical form. -/
theorem Memory.wf_ofCells (n : Nat) (cells : List (Nat × Byte)) : (Memory.ofCells n cells).wf := by
  induction cells with
  | nil => exact Memory.wf_nil
  | cons c cells ih =>
    simp only [Memory.ofCells, List.foldr_cons]
    split
    · exact Memory.wf_write ih _ _
    · exact ih

/-- A memory made of cells lists addresses below its size only. -/
theorem Memory.below_ofCells (n : Nat) (cells : List (Nat × Byte)) : (Memory.ofCells n cells).below n := by
  induction cells with
  | nil => exact Memory.below_nil n
  | cons c cells ih =>
    simp only [Memory.ofCells, List.foldr_cons]
    split
    · next h => exact Memory.below_write ih h _
    · exact ih

end Sys2Proof.Machine
end

