-- ==== Sys2Proof/Laws/State.lean ====
section
/-! SUPPORT. The fields of the state after each named update: one lemma per field per update, so that no proof unfolds a
record update. -/

namespace Sys2Proof.Machine

/-! ## advance -/

@[simp] theorem State.advance_pc (s : State) (n : ProgAddr) : (s.advance n).pc = s.pc + n := rfl
@[simp] theorem State.advance_params (s : State) (n : ProgAddr) : (s.advance n).params = s.params := rfl
@[simp] theorem State.advance_w (s : State) (n : ProgAddr) : (s.advance n).w = s.w := rfl
@[simp] theorem State.advance_status (s : State) (n : ProgAddr) : (s.advance n).status = s.status := rfl
@[simp] theorem State.advance_toBit (s : State) (n : ProgAddr) : (s.advance n).toBit = s.toBit := rfl
@[simp] theorem State.advance_pdBit (s : State) (n : ProgAddr) : (s.advance n).pdBit = s.pdBit := rfl
@[simp] theorem State.advance_bsr (s : State) (n : ProgAddr) : (s.advance n).bsr = s.bsr := rfl
@[simp] theorem State.advance_fsr0 (s : State) (n : ProgAddr) : (s.advance n).fsr0 = s.fsr0 := rfl
@[simp] theorem State.advance_fsr1 (s : State) (n : ProgAddr) : (s.advance n).fsr1 = s.fsr1 := rfl
@[simp] theorem State.advance_fsr2 (s : State) (n : ProgAddr) : (s.advance n).fsr2 = s.fsr2 := rfl
@[simp] theorem State.advance_prodh (s : State) (n : ProgAddr) : (s.advance n).prodh = s.prodh := rfl
@[simp] theorem State.advance_prodl (s : State) (n : ProgAddr) : (s.advance n).prodl = s.prodl := rfl
@[simp] theorem State.advance_pclath (s : State) (n : ProgAddr) : (s.advance n).pclath = s.pclath := rfl
@[simp] theorem State.advance_pclatu (s : State) (n : ProgAddr) : (s.advance n).pclatu = s.pclatu := rfl
@[simp] theorem State.advance_tblptr (s : State) (n : ProgAddr) : (s.advance n).tblptr = s.tblptr := rfl
@[simp] theorem State.advance_tablat (s : State) (n : ProgAddr) : (s.advance n).tablat = s.tablat := rfl
@[simp] theorem State.advance_hold (s : State) (n : ProgAddr) : (s.advance n).hold = s.hold := rfl
@[simp] theorem State.advance_stack (s : State) (n : ProgAddr) : (s.advance n).stack = s.stack := rfl
@[simp] theorem State.advance_ws (s : State) (n : ProgAddr) : (s.advance n).ws = s.ws := rfl
@[simp] theorem State.advance_statuss (s : State) (n : ProgAddr) : (s.advance n).statuss = s.statuss := rfl
@[simp] theorem State.advance_bsrs (s : State) (n : ProgAddr) : (s.advance n).bsrs = s.bsrs := rfl
@[simp] theorem State.advance_gieh (s : State) (n : ProgAddr) : (s.advance n).gieh = s.gieh := rfl
@[simp] theorem State.advance_giel (s : State) (n : ProgAddr) : (s.advance n).giel = s.giel := rfl
@[simp] theorem State.advance_intLevel (s : State) (n : ProgAddr) : (s.advance n).intLevel = s.intLevel := rfl
@[simp] theorem State.advance_wdt (s : State) (n : ProgAddr) : (s.advance n).wdt = s.wdt := rfl
@[simp] theorem State.advance_wdtps (s : State) (n : ProgAddr) : (s.advance n).wdtps = s.wdtps := rfl
@[simp] theorem State.advance_wdtClearedAt (s : State) (n : ProgAddr) : (s.advance n).wdtClearedAt = s.wdtClearedAt := rfl
@[simp] theorem State.advance_asleep (s : State) (n : ProgAddr) : (s.advance n).asleep = s.asleep := rfl
@[simp] theorem State.advance_data (s : State) (n : ProgAddr) : (s.advance n).data = s.data := rfl
@[simp] theorem State.advance_prog (s : State) (n : ProgAddr) : (s.advance n).prog = s.prog := rfl
@[simp] theorem State.advance_inputs (s : State) (n : ProgAddr) : (s.advance n).inputs = s.inputs := rfl
@[simp] theorem State.advance_freeIdx (s : State) (n : ProgAddr) : (s.advance n).freeIdx = s.freeIdx := rfl
@[simp] theorem State.advance_cycles (s : State) (n : ProgAddr) : (s.advance n).cycles = s.cycles := rfl

/-! ## tick -/

@[simp] theorem State.tick_cycles (s : State) (n : Nat) : (s.tick n).cycles = s.cycles + n := rfl
@[simp] theorem State.tick_params (s : State) (n : Nat) : (s.tick n).params = s.params := rfl
@[simp] theorem State.tick_pc (s : State) (n : Nat) : (s.tick n).pc = s.pc := rfl
@[simp] theorem State.tick_w (s : State) (n : Nat) : (s.tick n).w = s.w := rfl
@[simp] theorem State.tick_status (s : State) (n : Nat) : (s.tick n).status = s.status := rfl
@[simp] theorem State.tick_toBit (s : State) (n : Nat) : (s.tick n).toBit = s.toBit := rfl
@[simp] theorem State.tick_pdBit (s : State) (n : Nat) : (s.tick n).pdBit = s.pdBit := rfl
@[simp] theorem State.tick_bsr (s : State) (n : Nat) : (s.tick n).bsr = s.bsr := rfl
@[simp] theorem State.tick_fsr0 (s : State) (n : Nat) : (s.tick n).fsr0 = s.fsr0 := rfl
@[simp] theorem State.tick_fsr1 (s : State) (n : Nat) : (s.tick n).fsr1 = s.fsr1 := rfl
@[simp] theorem State.tick_fsr2 (s : State) (n : Nat) : (s.tick n).fsr2 = s.fsr2 := rfl
@[simp] theorem State.tick_prodh (s : State) (n : Nat) : (s.tick n).prodh = s.prodh := rfl
@[simp] theorem State.tick_prodl (s : State) (n : Nat) : (s.tick n).prodl = s.prodl := rfl
@[simp] theorem State.tick_pclath (s : State) (n : Nat) : (s.tick n).pclath = s.pclath := rfl
@[simp] theorem State.tick_pclatu (s : State) (n : Nat) : (s.tick n).pclatu = s.pclatu := rfl
@[simp] theorem State.tick_tblptr (s : State) (n : Nat) : (s.tick n).tblptr = s.tblptr := rfl
@[simp] theorem State.tick_tablat (s : State) (n : Nat) : (s.tick n).tablat = s.tablat := rfl
@[simp] theorem State.tick_hold (s : State) (n : Nat) : (s.tick n).hold = s.hold := rfl
@[simp] theorem State.tick_stack (s : State) (n : Nat) : (s.tick n).stack = s.stack := rfl
@[simp] theorem State.tick_ws (s : State) (n : Nat) : (s.tick n).ws = s.ws := rfl
@[simp] theorem State.tick_statuss (s : State) (n : Nat) : (s.tick n).statuss = s.statuss := rfl
@[simp] theorem State.tick_bsrs (s : State) (n : Nat) : (s.tick n).bsrs = s.bsrs := rfl
@[simp] theorem State.tick_gieh (s : State) (n : Nat) : (s.tick n).gieh = s.gieh := rfl
@[simp] theorem State.tick_giel (s : State) (n : Nat) : (s.tick n).giel = s.giel := rfl
@[simp] theorem State.tick_intLevel (s : State) (n : Nat) : (s.tick n).intLevel = s.intLevel := rfl
@[simp] theorem State.tick_wdt (s : State) (n : Nat) : (s.tick n).wdt = s.wdt := rfl
@[simp] theorem State.tick_wdtps (s : State) (n : Nat) : (s.tick n).wdtps = s.wdtps := rfl
@[simp] theorem State.tick_wdtClearedAt (s : State) (n : Nat) : (s.tick n).wdtClearedAt = s.wdtClearedAt := rfl
@[simp] theorem State.tick_asleep (s : State) (n : Nat) : (s.tick n).asleep = s.asleep := rfl
@[simp] theorem State.tick_data (s : State) (n : Nat) : (s.tick n).data = s.data := rfl
@[simp] theorem State.tick_prog (s : State) (n : Nat) : (s.tick n).prog = s.prog := rfl
@[simp] theorem State.tick_inputs (s : State) (n : Nat) : (s.tick n).inputs = s.inputs := rfl
@[simp] theorem State.tick_freeIdx (s : State) (n : Nat) : (s.tick n).freeIdx = s.freeIdx := rfl

/-! ## freeTick -/

@[simp] theorem State.freeTick_freeIdx (s : State) : s.freeTick.freeIdx = s.freeIdx + 1 := rfl
@[simp] theorem State.freeTick_cycles (s : State) : s.freeTick.cycles = s.cycles + Config.freeCycles s.freeIdx := rfl
@[simp] theorem State.freeTick_params (s : State) : (s.freeTick).params = s.params := rfl
@[simp] theorem State.freeTick_pc (s : State) : (s.freeTick).pc = s.pc := rfl
@[simp] theorem State.freeTick_w (s : State) : (s.freeTick).w = s.w := rfl
@[simp] theorem State.freeTick_status (s : State) : (s.freeTick).status = s.status := rfl
@[simp] theorem State.freeTick_toBit (s : State) : (s.freeTick).toBit = s.toBit := rfl
@[simp] theorem State.freeTick_pdBit (s : State) : (s.freeTick).pdBit = s.pdBit := rfl
@[simp] theorem State.freeTick_bsr (s : State) : (s.freeTick).bsr = s.bsr := rfl
@[simp] theorem State.freeTick_fsr0 (s : State) : (s.freeTick).fsr0 = s.fsr0 := rfl
@[simp] theorem State.freeTick_fsr1 (s : State) : (s.freeTick).fsr1 = s.fsr1 := rfl
@[simp] theorem State.freeTick_fsr2 (s : State) : (s.freeTick).fsr2 = s.fsr2 := rfl
@[simp] theorem State.freeTick_prodh (s : State) : (s.freeTick).prodh = s.prodh := rfl
@[simp] theorem State.freeTick_prodl (s : State) : (s.freeTick).prodl = s.prodl := rfl
@[simp] theorem State.freeTick_pclath (s : State) : (s.freeTick).pclath = s.pclath := rfl
@[simp] theorem State.freeTick_pclatu (s : State) : (s.freeTick).pclatu = s.pclatu := rfl
@[simp] theorem State.freeTick_tblptr (s : State) : (s.freeTick).tblptr = s.tblptr := rfl
@[simp] theorem State.freeTick_tablat (s : State) : (s.freeTick).tablat = s.tablat := rfl
@[simp] theorem State.freeTick_hold (s : State) : (s.freeTick).hold = s.hold := rfl
@[simp] theorem State.freeTick_stack (s : State) : (s.freeTick).stack = s.stack := rfl
@[simp] theorem State.freeTick_ws (s : State) : (s.freeTick).ws = s.ws := rfl
@[simp] theorem State.freeTick_statuss (s : State) : (s.freeTick).statuss = s.statuss := rfl
@[simp] theorem State.freeTick_bsrs (s : State) : (s.freeTick).bsrs = s.bsrs := rfl
@[simp] theorem State.freeTick_gieh (s : State) : (s.freeTick).gieh = s.gieh := rfl
@[simp] theorem State.freeTick_giel (s : State) : (s.freeTick).giel = s.giel := rfl
@[simp] theorem State.freeTick_intLevel (s : State) : (s.freeTick).intLevel = s.intLevel := rfl
@[simp] theorem State.freeTick_wdt (s : State) : (s.freeTick).wdt = s.wdt := rfl
@[simp] theorem State.freeTick_wdtps (s : State) : (s.freeTick).wdtps = s.wdtps := rfl
@[simp] theorem State.freeTick_wdtClearedAt (s : State) : (s.freeTick).wdtClearedAt = s.wdtClearedAt := rfl
@[simp] theorem State.freeTick_asleep (s : State) : (s.freeTick).asleep = s.asleep := rfl
@[simp] theorem State.freeTick_data (s : State) : (s.freeTick).data = s.data := rfl
@[simp] theorem State.freeTick_prog (s : State) : (s.freeTick).prog = s.prog := rfl
@[simp] theorem State.freeTick_inputs (s : State) : (s.freeTick).inputs = s.inputs := rfl

/-! ## loadPc -/

@[simp] theorem State.loadPc_pc (s : State) (v : ProgAddr) : (s.loadPc v).pc = evenAddr v := rfl
@[simp] theorem State.loadPc_params (s : State) (v : ProgAddr) : (s.loadPc v).params = s.params := rfl
@[simp] theorem State.loadPc_w (s : State) (v : ProgAddr) : (s.loadPc v).w = s.w := rfl
@[simp] theorem State.loadPc_status (s : State) (v : ProgAddr) : (s.loadPc v).status = s.status := rfl
@[simp] theorem State.loadPc_toBit (s : State) (v : ProgAddr) : (s.loadPc v).toBit = s.toBit := rfl
@[simp] theorem State.loadPc_pdBit (s : State) (v : ProgAddr) : (s.loadPc v).pdBit = s.pdBit := rfl
@[simp] theorem State.loadPc_bsr (s : State) (v : ProgAddr) : (s.loadPc v).bsr = s.bsr := rfl
@[simp] theorem State.loadPc_fsr0 (s : State) (v : ProgAddr) : (s.loadPc v).fsr0 = s.fsr0 := rfl
@[simp] theorem State.loadPc_fsr1 (s : State) (v : ProgAddr) : (s.loadPc v).fsr1 = s.fsr1 := rfl
@[simp] theorem State.loadPc_fsr2 (s : State) (v : ProgAddr) : (s.loadPc v).fsr2 = s.fsr2 := rfl
@[simp] theorem State.loadPc_prodh (s : State) (v : ProgAddr) : (s.loadPc v).prodh = s.prodh := rfl
@[simp] theorem State.loadPc_prodl (s : State) (v : ProgAddr) : (s.loadPc v).prodl = s.prodl := rfl
@[simp] theorem State.loadPc_pclath (s : State) (v : ProgAddr) : (s.loadPc v).pclath = s.pclath := rfl
@[simp] theorem State.loadPc_pclatu (s : State) (v : ProgAddr) : (s.loadPc v).pclatu = s.pclatu := rfl
@[simp] theorem State.loadPc_tblptr (s : State) (v : ProgAddr) : (s.loadPc v).tblptr = s.tblptr := rfl
@[simp] theorem State.loadPc_tablat (s : State) (v : ProgAddr) : (s.loadPc v).tablat = s.tablat := rfl
@[simp] theorem State.loadPc_hold (s : State) (v : ProgAddr) : (s.loadPc v).hold = s.hold := rfl
@[simp] theorem State.loadPc_stack (s : State) (v : ProgAddr) : (s.loadPc v).stack = s.stack := rfl
@[simp] theorem State.loadPc_ws (s : State) (v : ProgAddr) : (s.loadPc v).ws = s.ws := rfl
@[simp] theorem State.loadPc_statuss (s : State) (v : ProgAddr) : (s.loadPc v).statuss = s.statuss := rfl
@[simp] theorem State.loadPc_bsrs (s : State) (v : ProgAddr) : (s.loadPc v).bsrs = s.bsrs := rfl
@[simp] theorem State.loadPc_gieh (s : State) (v : ProgAddr) : (s.loadPc v).gieh = s.gieh := rfl
@[simp] theorem State.loadPc_giel (s : State) (v : ProgAddr) : (s.loadPc v).giel = s.giel := rfl
@[simp] theorem State.loadPc_intLevel (s : State) (v : ProgAddr) : (s.loadPc v).intLevel = s.intLevel := rfl
@[simp] theorem State.loadPc_wdt (s : State) (v : ProgAddr) : (s.loadPc v).wdt = s.wdt := rfl
@[simp] theorem State.loadPc_wdtps (s : State) (v : ProgAddr) : (s.loadPc v).wdtps = s.wdtps := rfl
@[simp] theorem State.loadPc_wdtClearedAt (s : State) (v : ProgAddr) : (s.loadPc v).wdtClearedAt = s.wdtClearedAt := rfl
@[simp] theorem State.loadPc_asleep (s : State) (v : ProgAddr) : (s.loadPc v).asleep = s.asleep := rfl
@[simp] theorem State.loadPc_data (s : State) (v : ProgAddr) : (s.loadPc v).data = s.data := rfl
@[simp] theorem State.loadPc_prog (s : State) (v : ProgAddr) : (s.loadPc v).prog = s.prog := rfl
@[simp] theorem State.loadPc_inputs (s : State) (v : ProgAddr) : (s.loadPc v).inputs = s.inputs := rfl
@[simp] theorem State.loadPc_freeIdx (s : State) (v : ProgAddr) : (s.loadPc v).freeIdx = s.freeIdx := rfl
@[simp] theorem State.loadPc_cycles (s : State) (v : ProgAddr) : (s.loadPc v).cycles = s.cycles := rfl

/-! ## setFsr -/

@[simp] theorem State.setFsr_fsr (s : State) (n : FsrNum) (v : BitVec 12) : (s.setFsr n v).fsr n = v := by
  cases n <;> rfl
theorem State.setFsr_fsr_ne (s : State) {m n : FsrNum} (h : m ≠ n) (v : BitVec 12) : (s.setFsr n v).fsr m = s.fsr m := by
  cases m <;> cases n <;> first | rfl | exact absurd rfl h
@[simp] theorem State.setFsr_params (s : State) (n : FsrNum) (v : BitVec 12) : (s.setFsr n v).params = s.params := by cases n <;> rfl
@[simp] theorem State.setFsr_pc (s : State) (n : FsrNum) (v : BitVec 12) : (s.setFsr n v).pc = s.pc := by cases n <;> rfl
@[simp] theorem State.setFsr_w (s : State) (n : FsrNum) (v : BitVec 12) : (s.setFsr n v).w = s.w := by cases n <;> rfl
@[simp] theorem State.setFsr_status (s : State) (n : FsrNum) (v : BitVec 12) : (s.setFsr n v).status = s.status := by cases n <;> rfl
@[simp] theorem State.setFsr_toBit (s : State) (n : FsrNum) (v : BitVec 12) : (s.setFsr n v).toBit = s.toBit := by cases n <;> rfl
@[simp] theorem State.setFsr_pdBit (s : State) (n : FsrNum) (v : BitVec 12) : (s.setFsr n v).pdBit = s.pdBit := by cases n <;> rfl
@[simp] theorem State.setFsr_bsr (s : State) (n : FsrNum) (v : BitVec 12) : (s.setFsr n v).bsr = s.bsr := by cases n <;> rfl
@[simp] theorem State.setFsr_prodh (s : State) (n : FsrNum) (v : BitVec 12) : (s.setFsr n v).prodh = s.prodh := by cases n <;> rfl
@[simp] theorem State.setFsr_prodl (s : State) (n : FsrNum) (v : BitVec 12) : (s.setFsr n v).prodl = s.prodl := by cases n <;> rfl
@[simp] theorem State.setFsr_pclath (s : State) (n : FsrNum) (v : BitVec 12) : (s.setFsr n v).pclath = s.pclath := by cases n <;> rfl
@[simp] theorem State.setFsr_pclatu (s : State) (n : FsrNum) (v : BitVec 12) : (s.setFsr n v).pclatu = s.pclatu := by cases n <;> rfl
@[simp] theorem State.setFsr_tblptr (s : State) (n : FsrNum) (v : BitVec 12) : (s.setFsr n v).tblptr = s.tblptr := by cases n <;> rfl
@[simp] theorem State.setFsr_tablat (s : State) (n : FsrNum) (v : BitVec 12) : (s.setFsr n v).tablat = s.tablat := by cases n <;> rfl
@[simp] theorem State.setFsr_hold (s : State) (n : FsrNum) (v : BitVec 12) : (s.setFsr n v).hold = s.hold := by cases n <;> rfl
@[simp] theorem State.setFsr_stack (s : State) (n : FsrNum) (v : BitVec 12) : (s.setFsr n v).stack = s.stack := by cases n <;> rfl
@[simp] theorem State.setFsr_ws (s : State) (n : FsrNum) (v : BitVec 12) : (s.setFsr n v).ws = s.ws := by cases n <;> rfl
@[simp] theorem State.setFsr_statuss (s : State) (n : FsrNum) (v : BitVec 12) : (s.setFsr n v).statuss = s.statuss := by cases n <;> rfl
@[simp] theorem State.setFsr_bsrs (s : State) (n : FsrNum) (v : BitVec 12) : (s.setFsr n v).bsrs = s.bsrs := by cases n <;> rfl
@[simp] theorem State.setFsr_gieh (s : State) (n : FsrNum) (v : BitVec 12) : (s.setFsr n v).gieh = s.gieh := by cases n <;> rfl
@[simp] theorem State.setFsr_giel (s : State) (n : FsrNum) (v : BitVec 12) : (s.setFsr n v).giel = s.giel := by cases n <;> rfl
@[simp] theorem State.setFsr_intLevel (s : State) (n : FsrNum) (v : BitVec 12) : (s.setFsr n v).intLevel = s.intLevel := by cases n <;> rfl
@[simp] theorem State.setFsr_wdt (s : State) (n : FsrNum) (v : BitVec 12) : (s.setFsr n v).wdt = s.wdt := by cases n <;> rfl
@[simp] theorem State.setFsr_wdtps (s : State) (n : FsrNum) (v : BitVec 12) : (s.setFsr n v).wdtps = s.wdtps := by cases n <;> rfl
@[simp] theorem State.setFsr_wdtClearedAt (s : State) (n : FsrNum) (v : BitVec 12) : (s.setFsr n v).wdtClearedAt = s.wdtClearedAt := by cases n <;> rfl
@[simp] theorem State.setFsr_asleep (s : State) (n : FsrNum) (v : BitVec 12) : (s.setFsr n v).asleep = s.asleep := by cases n <;> rfl
@[simp] theorem State.setFsr_data (s : State) (n : FsrNum) (v : BitVec 12) : (s.setFsr n v).data = s.data := by cases n <;> rfl
@[simp] theorem State.setFsr_prog (s : State) (n : FsrNum) (v : BitVec 12) : (s.setFsr n v).prog = s.prog := by cases n <;> rfl
@[simp] theorem State.setFsr_inputs (s : State) (n : FsrNum) (v : BitVec 12) : (s.setFsr n v).inputs = s.inputs := by cases n <;> rfl
@[simp] theorem State.setFsr_freeIdx (s : State) (n : FsrNum) (v : BitVec 12) : (s.setFsr n v).freeIdx = s.freeIdx := by cases n <;> rfl
@[simp] theorem State.setFsr_cycles (s : State) (n : FsrNum) (v : BitVec 12) : (s.setFsr n v).cycles = s.cycles := by cases n <;> rfl

/-! ## setTos -/

@[simp] theorem State.setTos_params (s : State) (v : ProgAddr) : (s.setTos v).params = s.params := by unfold State.setTos; split <;> rfl
@[simp] theorem State.setTos_pc (s : State) (v : ProgAddr) : (s.setTos v).pc = s.pc := by unfold State.setTos; split <;> rfl
@[simp] theorem State.setTos_w (s : State) (v : ProgAddr) : (s.setTos v).w = s.w := by unfold State.setTos; split <;> rfl
@[simp] theorem State.setTos_status (s : State) (v : ProgAddr) : (s.setTos v).status = s.status := by unfold State.setTos; split <;> rfl
@[simp] theorem State.setTos_toBit (s : State) (v : ProgAddr) : (s.setTos v).toBit = s.toBit := by unfold State.setTos; split <;> rfl
@[simp] theorem State.setTos_pdBit (s : State) (v : ProgAddr) : (s.setTos v).pdBit = s.pdBit := by unfold State.setTos; split <;> rfl
@[simp] theorem State.setTos_bsr (s : State) (v : ProgAddr) : (s.setTos v).bsr = s.bsr := by unfold State.setTos; split <;> rfl
@[simp] theorem State.setTos_fsr0 (s : State) (v : ProgAddr) : (s.setTos v).fsr0 = s.fsr0 := by unfold State.setTos; split <;> rfl
@[simp] theorem State.setTos_fsr1 (s : State) (v : ProgAddr) : (s.setTos v).fsr1 = s.fsr1 := by unfold State.setTos; split <;> rfl
@[simp] theorem State.setTos_fsr2 (s : State) (v : ProgAddr) : (s.setTos v).fsr2 = s.fsr2 := by unfold State.setTos; split <;> rfl
@[simp] theorem State.setTos_prodh (s : State) (v : ProgAddr) : (s.setTos v).prodh = s.prodh := by unfold State.setTos; split <;> rfl
@[simp] theorem State.setTos_prodl (s : State) (v : ProgAddr) : (s.setTos v).prodl = s.prodl := by unfold State.setTos; split <;> rfl
@[simp] theorem State.setTos_pclath (s : State) (v : ProgAddr) : (s.setTos v).pclath = s.pclath := by unfold State.setTos; split <;> rfl
@[simp] theorem State.setTos_pclatu (s : State) (v : ProgAddr) : (s.setTos v).pclatu = s.pclatu := by unfold State.setTos; split <;> rfl
@[simp] theorem State.setTos_tblptr (s : State) (v : ProgAddr) : (s.setTos v).tblptr = s.tblptr := by unfold State.setTos; split <;> rfl
@[simp] theorem State.setTos_tablat (s : State) (v : ProgAddr) : (s.setTos v).tablat = s.tablat := by unfold State.setTos; split <;> rfl
@[simp] theorem State.setTos_hold (s : State) (v : ProgAddr) : (s.setTos v).hold = s.hold := by unfold State.setTos; split <;> rfl
@[simp] theorem State.setTos_ws (s : State) (v : ProgAddr) : (s.setTos v).ws = s.ws := by unfold State.setTos; split <;> rfl
@[simp] theorem State.setTos_statuss (s : State) (v : ProgAddr) : (s.setTos v).statuss = s.statuss := by unfold State.setTos; split <;> rfl
@[simp] theorem State.setTos_bsrs (s : State) (v : ProgAddr) : (s.setTos v).bsrs = s.bsrs := by unfold State.setTos; split <;> rfl
@[simp] theorem State.setTos_gieh (s : State) (v : ProgAddr) : (s.setTos v).gieh = s.gieh := by unfold State.setTos; split <;> rfl
@[simp] theorem State.setTos_giel (s : State) (v : ProgAddr) : (s.setTos v).giel = s.giel := by unfold State.setTos; split <;> rfl
@[simp] theorem State.setTos_intLevel (s : State) (v : ProgAddr) : (s.setTos v).intLevel = s.intLevel := by unfold State.setTos; split <;> rfl
@[simp] theorem State.setTos_wdt (s : State) (v : ProgAddr) : (s.setTos v).wdt = s.wdt := by unfold State.setTos; split <;> rfl
@[simp] theorem State.setTos_wdtps (s : State) (v : ProgAddr) : (s.setTos v).wdtps = s.wdtps := by unfold State.setTos; split <;> rfl
@[simp] theorem State.setTos_wdtClearedAt (s : State) (v : ProgAddr) : (s.setTos v).wdtClearedAt = s.wdtClearedAt := by unfold State.setTos; split <;> rfl
@[simp] theorem State.setTos_asleep (s : State) (v : ProgAddr) : (s.setTos v).asleep = s.asleep := by unfold State.setTos; split <;> rfl
@[simp] theorem State.setTos_data (s : State) (v : ProgAddr) : (s.setTos v).data = s.data := by unfold State.setTos; split <;> rfl
@[simp] theorem State.setTos_prog (s : State) (v : ProgAddr) : (s.setTos v).prog = s.prog := by unfold State.setTos; split <;> rfl
@[simp] theorem State.setTos_inputs (s : State) (v : ProgAddr) : (s.setTos v).inputs = s.inputs := by unfold State.setTos; split <;> rfl
@[simp] theorem State.setTos_freeIdx (s : State) (v : ProgAddr) : (s.setTos v).freeIdx = s.freeIdx := by unfold State.setTos; split <;> rfl
@[simp] theorem State.setTos_cycles (s : State) (v : ProgAddr) : (s.setTos v).cycles = s.cycles := by unfold State.setTos; split <;> rfl
@[simp] theorem State.setTos_length (s : State) (v : ProgAddr) : (s.setTos v).stack.length = s.stack.length := by
  unfold State.setTos
  split
  · rfl
  · next h =>
    have : s.stack.length ≠ 0 := by simpa using h
    simp
    omega

/-! ## fastSave and fastRestore -/

@[simp] theorem State.fastSave_ws (s : State) : s.fastSave.ws = s.w := rfl
@[simp] theorem State.fastSave_statuss (s : State) : s.fastSave.statuss = s.status := rfl
@[simp] theorem State.fastSave_bsrs (s : State) : s.fastSave.bsrs = s.bsr := rfl
@[simp] theorem State.fastSave_params (s : State) : (s.fastSave).params = s.params := rfl
@[simp] theorem State.fastSave_pc (s : State) : (s.fastSave).pc = s.pc := rfl
@[simp] theorem State.fastSave_w (s : State) : (s.fastSave).w = s.w := rfl
@[simp] theorem State.fastSave_status (s : State) : (s.fastSave).status = s.status := rfl
@[simp] theorem State.fastSave_toBit (s : State) : (s.fastSave).toBit = s.toBit := rfl
@[simp] theorem State.fastSave_pdBit (s : State) : (s.fastSave).pdBit = s.pdBit := rfl
@[simp] theorem State.fastSave_bsr (s : State) : (s.fastSave).bsr = s.bsr := rfl
@[simp] theorem State.fastSave_fsr0 (s : State) : (s.fastSave).fsr0 = s.fsr0 := rfl
@[simp] theorem State.fastSave_fsr1 (s : State) : (s.fastSave).fsr1 = s.fsr1 := rfl
@[simp] theorem State.fastSave_fsr2 (s : State) : (s.fastSave).fsr2 = s.fsr2 := rfl
@[simp] theorem State.fastSave_prodh (s : State) : (s.fastSave).prodh = s.prodh := rfl
@[simp] theorem State.fastSave_prodl (s : State) : (s.fastSave).prodl = s.prodl := rfl
@[simp] theorem State.fastSave_pclath (s : State) : (s.fastSave).pclath = s.pclath := rfl
@[simp] theorem State.fastSave_pclatu (s : State) : (s.fastSave).pclatu = s.pclatu := rfl
@[simp] theorem State.fastSave_tblptr (s : State) : (s.fastSave).tblptr = s.tblptr := rfl
@[simp] theorem State.fastSave_tablat (s : State) : (s.fastSave).tablat = s.tablat := rfl
@[simp] theorem State.fastSave_hold (s : State) : (s.fastSave).hold = s.hold := rfl
@[simp] theorem State.fastSave_stack (s : State) : (s.fastSave).stack = s.stack := rfl
@[simp] theorem State.fastSave_gieh (s : State) : (s.fastSave).gieh = s.gieh := rfl
@[simp] theorem State.fastSave_giel (s : State) : (s.fastSave).giel = s.giel := rfl
@[simp] theorem State.fastSave_intLevel (s : State) : (s.fastSave).intLevel = s.intLevel := rfl
@[simp] theorem State.fastSave_wdt (s : State) : (s.fastSave).wdt = s.wdt := rfl
@[simp] theorem State.fastSave_wdtps (s : State) : (s.fastSave).wdtps = s.wdtps := rfl
@[simp] theorem State.fastSave_wdtClearedAt (s : State) : (s.fastSave).wdtClearedAt = s.wdtClearedAt := rfl
@[simp] theorem State.fastSave_asleep (s : State) : (s.fastSave).asleep = s.asleep := rfl
@[simp] theorem State.fastSave_data (s : State) : (s.fastSave).data = s.data := rfl
@[simp] theorem State.fastSave_prog (s : State) : (s.fastSave).prog = s.prog := rfl
@[simp] theorem State.fastSave_inputs (s : State) : (s.fastSave).inputs = s.inputs := rfl
@[simp] theorem State.fastSave_freeIdx (s : State) : (s.fastSave).freeIdx = s.freeIdx := rfl
@[simp] theorem State.fastSave_cycles (s : State) : (s.fastSave).cycles = s.cycles := rfl
@[simp] theorem State.fastRestore_w (s : State) : s.fastRestore.w = s.ws := rfl
@[simp] theorem State.fastRestore_status (s : State) : s.fastRestore.status = s.statuss := rfl
@[simp] theorem State.fastRestore_bsr (s : State) : s.fastRestore.bsr = s.bsrs := rfl
@[simp] theorem State.fastRestore_params (s : State) : (s.fastRestore).params = s.params := rfl
@[simp] theorem State.fastRestore_pc (s : State) : (s.fastRestore).pc = s.pc := rfl
@[simp] theorem State.fastRestore_toBit (s : State) : (s.fastRestore).toBit = s.toBit := rfl
@[simp] theorem State.fastRestore_pdBit (s : State) : (s.fastRestore).pdBit = s.pdBit := rfl
@[simp] theorem State.fastRestore_fsr0 (s : State) : (s.fastRestore).fsr0 = s.fsr0 := rfl
@[simp] theorem State.fastRestore_fsr1 (s : State) : (s.fastRestore).fsr1 = s.fsr1 := rfl
@[simp] theorem State.fastRestore_fsr2 (s : State) : (s.fastRestore).fsr2 = s.fsr2 := rfl
@[simp] theorem State.fastRestore_prodh (s : State) : (s.fastRestore).prodh = s.prodh := rfl
@[simp] theorem State.fastRestore_prodl (s : State) : (s.fastRestore).prodl = s.prodl := rfl
@[simp] theorem State.fastRestore_pclath (s : State) : (s.fastRestore).pclath = s.pclath := rfl
@[simp] theorem State.fastRestore_pclatu (s : State) : (s.fastRestore).pclatu = s.pclatu := rfl
@[simp] theorem State.fastRestore_tblptr (s : State) : (s.fastRestore).tblptr = s.tblptr := rfl
@[simp] theorem State.fastRestore_tablat (s : State) : (s.fastRestore).tablat = s.tablat := rfl
@[simp] theorem State.fastRestore_hold (s : State) : (s.fastRestore).hold = s.hold := rfl
@[simp] theorem State.fastRestore_stack (s : State) : (s.fastRestore).stack = s.stack := rfl
@[simp] theorem State.fastRestore_ws (s : State) : (s.fastRestore).ws = s.ws := rfl
@[simp] theorem State.fastRestore_statuss (s : State) : (s.fastRestore).statuss = s.statuss := rfl
@[simp] theorem State.fastRestore_bsrs (s : State) : (s.fastRestore).bsrs = s.bsrs := rfl
@[simp] theorem State.fastRestore_gieh (s : State) : (s.fastRestore).gieh = s.gieh := rfl
@[simp] theorem State.fastRestore_giel (s : State) : (s.fastRestore).giel = s.giel := rfl
@[simp] theorem State.fastRestore_intLevel (s : State) : (s.fastRestore).intLevel = s.intLevel := rfl
@[simp] theorem State.fastRestore_wdt (s : State) : (s.fastRestore).wdt = s.wdt := rfl
@[simp] theorem State.fastRestore_wdtps (s : State) : (s.fastRestore).wdtps = s.wdtps := rfl
@[simp] theorem State.fastRestore_wdtClearedAt (s : State) : (s.fastRestore).wdtClearedAt = s.wdtClearedAt := rfl
@[simp] theorem State.fastRestore_asleep (s : State) : (s.fastRestore).asleep = s.asleep := rfl
@[simp] theorem State.fastRestore_data (s : State) : (s.fastRestore).data = s.data := rfl
@[simp] theorem State.fastRestore_prog (s : State) : (s.fastRestore).prog = s.prog := rfl
@[simp] theorem State.fastRestore_inputs (s : State) : (s.fastRestore).inputs = s.inputs := rfl
@[simp] theorem State.fastRestore_freeIdx (s : State) : (s.fastRestore).freeIdx = s.freeIdx := rfl
@[simp] theorem State.fastRestore_cycles (s : State) : (s.fastRestore).cycles = s.cycles := rfl

/-! ## interruptReturn -/

@[simp] theorem State.interruptReturn_params (s : State) : (s.interruptReturn).params = s.params := by unfold State.interruptReturn; split <;> rfl
@[simp] theorem State.interruptReturn_pc (s : State) : (s.interruptReturn).pc = s.pc := by unfold State.interruptReturn; split <;> rfl
@[simp] theorem State.interruptReturn_w (s : State) : (s.interruptReturn).w = s.w := by unfold State.interruptReturn; split <;> rfl
@[simp] theorem State.interruptReturn_status (s : State) : (s.interruptReturn).status = s.status := by unfold State.interruptReturn; split <;> rfl
@[simp] theorem State.interruptReturn_toBit (s : State) : (s.interruptReturn).toBit = s.toBit := by unfold State.interruptReturn; split <;> rfl
@[simp] theorem State.interruptReturn_pdBit (s : State) : (s.interruptReturn).pdBit = s.pdBit := by unfold State.interruptReturn; split <;> rfl
@[simp] theorem State.interruptReturn_bsr (s : State) : (s.interruptReturn).bsr = s.bsr := by unfold State.interruptReturn; split <;> rfl
@[simp] theorem State.interruptReturn_fsr0 (s : State) : (s.interruptReturn).fsr0 = s.fsr0 := by unfold State.interruptReturn; split <;> rfl
@[simp] theorem State.interruptReturn_fsr1 (s : State) : (s.interruptReturn).fsr1 = s.fsr1 := by unfold State.interruptReturn; split <;> rfl
@[simp] theorem State.interruptReturn_fsr2 (s : State) : (s.interruptReturn).fsr2 = s.fsr2 := by unfold State.interruptReturn; split <;> rfl
@[simp] theorem State.interruptReturn_prodh (s : State) : (s.interruptReturn).prodh = s.prodh := by unfold State.interruptReturn; split <;> rfl
@[simp] theorem State.interruptReturn_prodl (s : State) : (s.interruptReturn).prodl = s.prodl := by unfold State.interruptReturn; split <;> rfl
@[simp] theorem State.interruptReturn_pclath (s : State) : (s.interruptReturn).pclath = s.pclath := by unfold State.interruptReturn; split <;> rfl
@[simp] theorem State.interruptReturn_pclatu (s : State) : (s.interruptReturn).pclatu = s.pclatu := by unfold State.interruptReturn; split <;> rfl
@[simp] theorem State.interruptReturn_tblptr (s : State) : (s.interruptReturn).tblptr = s.tblptr := by unfold State.interruptReturn; split <;> rfl
@[simp] theorem State.interruptReturn_tablat (s : State) : (s.interruptReturn).tablat = s.tablat := by unfold State.interruptReturn; split <;> rfl
@[simp] theorem State.interruptReturn_hold (s : State) : (s.interruptReturn).hold = s.hold := by unfold State.interruptReturn; split <;> rfl
@[simp] theorem State.interruptReturn_stack (s : State) : (s.interruptReturn).stack = s.stack := by unfold State.interruptReturn; split <;> rfl
@[simp] theorem State.interruptReturn_ws (s : State) : (s.interruptReturn).ws = s.ws := by unfold State.interruptReturn; split <;> rfl
@[simp] theorem State.interruptReturn_statuss (s : State) : (s.interruptReturn).statuss = s.statuss := by unfold State.interruptReturn; split <;> rfl
@[simp] theorem State.interruptReturn_bsrs (s : State) : (s.interruptReturn).bsrs = s.bsrs := by unfold State.interruptReturn; split <;> rfl
@[simp] theorem State.interruptReturn_wdt (s : State) : (s.interruptReturn).wdt = s.wdt := by unfold State.interruptReturn; split <;> rfl
@[simp] theorem State.interruptReturn_wdtps (s : State) : (s.interruptReturn).wdtps = s.wdtps := by unfold State.interruptReturn; split <;> rfl
@[simp] theorem State.interruptReturn_wdtClearedAt (s : State) : (s.interruptReturn).wdtClearedAt = s.wdtClearedAt := by unfold State.interruptReturn; split <;> rfl
@[simp] theorem State.interruptReturn_asleep (s : State) : (s.interruptReturn).asleep = s.asleep := by unfold State.interruptReturn; split <;> rfl
@[simp] theorem State.interruptReturn_data (s : State) : (s.interruptReturn).data = s.data := by unfold State.interruptReturn; split <;> rfl
@[simp] theorem State.interruptReturn_prog (s : State) : (s.interruptReturn).prog = s.prog := by unfold State.interruptReturn; split <;> rfl
@[simp] theorem State.interruptReturn_inputs (s : State) : (s.interruptReturn).inputs = s.inputs := by unfold State.interruptReturn; split <;> rfl
@[simp] theorem State.interruptReturn_freeIdx (s : State) : (s.interruptReturn).freeIdx = s.freeIdx := by unfold State.interruptReturn; split <;> rfl
@[simp] theorem State.interruptReturn_cycles (s : State) : (s.interruptReturn).cycles = s.cycles := by unfold State.interruptReturn; split <;> rfl

/-! ## setProd -/

@[simp] theorem State.setProd_prodh (s : State) (p : BitVec 16) : (s.setProd p).prodh = p.extractLsb' 8 8 := rfl
@[simp] theorem State.setProd_prodl (s : State) (p : BitVec 16) : (s.setProd p).prodl = p.extractLsb' 0 8 := rfl
@[simp] theorem State.setProd_params (s : State) (p : BitVec 16) : (s.setProd p).params = s.params := rfl
@[simp] theorem State.setProd_pc (s : State) (p : BitVec 16) : (s.setProd p).pc = s.pc := rfl
@[simp] theorem State.setProd_w (s : State) (p : BitVec 16) : (s.setProd p).w = s.w := rfl
@[simp] theorem State.setProd_status (s : State) (p : BitVec 16) : (s.setProd p).status = s.status := rfl
@[simp] theorem State.setProd_toBit (s : State) (p : BitVec 16) : (s.setProd p).toBit = s.toBit := rfl
@[simp] theorem State.setProd_pdBit (s : State) (p : BitVec 16) : (s.setProd p).pdBit = s.pdBit := rfl
@[simp] theorem State.setProd_bsr (s : State) (p : BitVec 16) : (s.setProd p).bsr = s.bsr := rfl
@[simp] theorem State.setProd_fsr0 (s : State) (p : BitVec 16) : (s.setProd p).fsr0 = s.fsr0 := rfl
@[simp] theorem State.setProd_fsr1 (s : State) (p : BitVec 16) : (s.setProd p).fsr1 = s.fsr1 := rfl
@[simp] theorem State.setProd_fsr2 (s : State) (p : BitVec 16) : (s.setProd p).fsr2 = s.fsr2 := rfl
@[simp] theorem State.setProd_pclath (s : State) (p : BitVec 16) : (s.setProd p).pclath = s.pclath := rfl
@[simp] theorem State.setProd_pclatu (s : State) (p : BitVec 16) : (s.setProd p).pclatu = s.pclatu := rfl
@[simp] theorem State.setProd_tblptr (s : State) (p : BitVec 16) : (s.setProd p).tblptr = s.tblptr := rfl
@[simp] theorem State.setProd_tablat (s : State) (p : BitVec 16) : (s.setProd p).tablat = s.tablat := rfl
@[simp] theorem State.setProd_hold (s : State) (p : BitVec 16) : (s.setProd p).hold = s.hold := rfl
@[simp] theorem State.setProd_stack (s : State) (p : BitVec 16) : (s.setProd p).stack = s.stack := rfl
@[simp] theorem State.setProd_ws (s : State) (p : BitVec 16) : (s.setProd p).ws = s.ws := rfl
@[simp] theorem State.setProd_statuss (s : State) (p : BitVec 16) : (s.setProd p).statuss = s.statuss := rfl
@[simp] theorem State.setProd_bsrs (s : State) (p : BitVec 16) : (s.setProd p).bsrs = s.bsrs := rfl
@[simp] theorem State.setProd_gieh (s : State) (p : BitVec 16) : (s.setProd p).gieh = s.gieh := rfl
@[simp] theorem State.setProd_giel (s : State) (p : BitVec 16) : (s.setProd p).giel = s.giel := rfl
@[simp] theorem State.setProd_intLevel (s : State) (p : BitVec 16) : (s.setProd p).intLevel = s.intLevel := rfl
@[simp] theorem State.setProd_wdt (s : State) (p : BitVec 16) : (s.setProd p).wdt = s.wdt := rfl
@[simp] theorem State.setProd_wdtps (s : State) (p : BitVec 16) : (s.setProd p).wdtps = s.wdtps := rfl
@[simp] theorem State.setProd_wdtClearedAt (s : State) (p : BitVec 16) : (s.setProd p).wdtClearedAt = s.wdtClearedAt := rfl
@[simp] theorem State.setProd_asleep (s : State) (p : BitVec 16) : (s.setProd p).asleep = s.asleep := rfl
@[simp] theorem State.setProd_data (s : State) (p : BitVec 16) : (s.setProd p).data = s.data := rfl
@[simp] theorem State.setProd_prog (s : State) (p : BitVec 16) : (s.setProd p).prog = s.prog := rfl
@[simp] theorem State.setProd_inputs (s : State) (p : BitVec 16) : (s.setProd p).inputs = s.inputs := rfl
@[simp] theorem State.setProd_freeIdx (s : State) (p : BitVec 16) : (s.setProd p).freeIdx = s.freeIdx := rfl
@[simp] theorem State.setProd_cycles (s : State) (p : BitVec 16) : (s.setProd p).cycles = s.cycles := rfl

/-! ## settle -/

@[simp] theorem Loc.settle_params (l : Loc) (s : State) : (l.settle s).params = s.params := by
  unfold Loc.settle; split <;> simp
@[simp] theorem Loc.settle_pc (l : Loc) (s : State) : (l.settle s).pc = s.pc := by
  unfold Loc.settle; split <;> simp
@[simp] theorem Loc.settle_w (l : Loc) (s : State) : (l.settle s).w = s.w := by
  unfold Loc.settle; split <;> simp
@[simp] theorem Loc.settle_status (l : Loc) (s : State) : (l.settle s).status = s.status := by
  unfold Loc.settle; split <;> simp
@[simp] theorem Loc.settle_toBit (l : Loc) (s : State) : (l.settle s).toBit = s.toBit := by
  unfold Loc.settle; split <;> simp
@[simp] theorem Loc.settle_pdBit (l : Loc) (s : State) : (l.settle s).pdBit = s.pdBit := by
  unfold Loc.settle; split <;> simp
@[simp] theorem Loc.settle_bsr (l : Loc) (s : State) : (l.settle s).bsr = s.bsr := by
  unfold Loc.settle; split <;> simp
@[simp] theorem Loc.settle_prodh (l : Loc) (s : State) : (l.settle s).prodh = s.prodh := by
  unfold Loc.settle; split <;> simp
@[simp] theorem Loc.settle_prodl (l : Loc) (s : State) : (l.settle s).prodl = s.prodl := by
  unfold Loc.settle; split <;> simp
@[simp] theorem Loc.settle_pclath (l : Loc) (s : State) : (l.settle s).pclath = s.pclath := by
  unfold Loc.settle; split <;> simp
@[simp] theorem Loc.settle_pclatu (l : Loc) (s : State) : (l.settle s).pclatu = s.pclatu := by
  unfold Loc.settle; split <;> simp
@[simp] theorem Loc.settle_tblptr (l : Loc) (s : State) : (l.settle s).tblptr = s.tblptr := by
  unfold Loc.settle; split <;> simp
@[simp] theorem Loc.settle_tablat (l : Loc) (s : State) : (l.settle s).tablat = s.tablat := by
  unfold Loc.settle; split <;> simp
@[simp] theorem Loc.settle_hold (l : Loc) (s : State) : (l.settle s).hold = s.hold := by
  unfold Loc.settle; split <;> simp
@[simp] theorem Loc.settle_stack (l : Loc) (s : State) : (l.settle s).stack = s.stack := by
  unfold Loc.settle; split <;> simp
@[simp] theorem Loc.settle_ws (l : Loc) (s : State) : (l.settle s).ws = s.ws := by
  unfold Loc.settle; split <;> simp
@[simp] theorem Loc.settle_statuss (l : Loc) (s : State) : (l.settle s).statuss = s.statuss := by
  unfold Loc.settle; split <;> simp
@[simp] theorem Loc.settle_bsrs (l : Loc) (s : State) : (l.settle s).bsrs = s.bsrs := by
  unfold Loc.settle; split <;> simp
@[simp] theorem Loc.settle_gieh (l : Loc) (s : State) : (l.settle s).gieh = s.gieh := by
  unfold Loc.settle; split <;> simp
@[simp] theorem Loc.settle_giel (l : Loc) (s : State) : (l.settle s).giel = s.giel := by
  unfold Loc.settle; split <;> simp
@[simp] theorem Loc.settle_intLevel (l : Loc) (s : State) : (l.settle s).intLevel = s.intLevel := by
  unfold Loc.settle; split <;> simp
@[simp] theorem Loc.settle_wdt (l : Loc) (s : State) : (l.settle s).wdt = s.wdt := by
  unfold Loc.settle; split <;> simp
@[simp] theorem Loc.settle_wdtps (l : Loc) (s : State) : (l.settle s).wdtps = s.wdtps := by
  unfold Loc.settle; split <;> simp
@[simp] theorem Loc.settle_wdtClearedAt (l : Loc) (s : State) : (l.settle s).wdtClearedAt = s.wdtClearedAt := by
  unfold Loc.settle; split <;> simp
@[simp] theorem Loc.settle_asleep (l : Loc) (s : State) : (l.settle s).asleep = s.asleep := by
  unfold Loc.settle; split <;> simp
@[simp] theorem Loc.settle_data (l : Loc) (s : State) : (l.settle s).data = s.data := by
  unfold Loc.settle; split <;> simp
@[simp] theorem Loc.settle_prog (l : Loc) (s : State) : (l.settle s).prog = s.prog := by
  unfold Loc.settle; split <;> simp
@[simp] theorem Loc.settle_inputs (l : Loc) (s : State) : (l.settle s).inputs = s.inputs := by
  unfold Loc.settle; split <;> simp
@[simp] theorem Loc.settle_freeIdx (l : Loc) (s : State) : (l.settle s).freeIdx = s.freeIdx := by
  unfold Loc.settle; split <;> simp
@[simp] theorem Loc.settle_cycles (l : Loc) (s : State) : (l.settle s).cycles = s.cycles := by
  unfold Loc.settle; split <;> simp

/-! ## countWdt -/

@[simp] theorem countWdt_params (s : State) (i : BoundaryInput) : (countWdt s i).params = s.params := by
  unfold countWdt; split <;> (try split) <;> rfl
@[simp] theorem countWdt_pc (s : State) (i : BoundaryInput) : (countWdt s i).pc = s.pc := by
  unfold countWdt; split <;> (try split) <;> rfl
@[simp] theorem countWdt_w (s : State) (i : BoundaryInput) : (countWdt s i).w = s.w := by
  unfold countWdt; split <;> (try split) <;> rfl
@[simp] theorem countWdt_status (s : State) (i : BoundaryInput) : (countWdt s i).status = s.status := by
  unfold countWdt; split <;> (try split) <;> rfl
@[simp] theorem countWdt_toBit (s : State) (i : BoundaryInput) : (countWdt s i).toBit = s.toBit := by
  unfold countWdt; split <;> (try split) <;> rfl
@[simp] theorem countWdt_pdBit (s : State) (i : BoundaryInput) : (countWdt s i).pdBit = s.pdBit := by
  unfold countWdt; split <;> (try split) <;> rfl
@[simp] theorem countWdt_bsr (s : State) (i : BoundaryInput) : (countWdt s i).bsr = s.bsr := by
  unfold countWdt; split <;> (try split) <;> rfl
@[simp] theorem countWdt_fsr0 (s : State) (i : BoundaryInput) : (countWdt s i).fsr0 = s.fsr0 := by
  unfold countWdt; split <;> (try split) <;> rfl
@[simp] theorem countWdt_fsr1 (s : State) (i : BoundaryInput) : (countWdt s i).fsr1 = s.fsr1 := by
  unfold countWdt; split <;> (try split) <;> rfl
@[simp] theorem countWdt_fsr2 (s : State) (i : BoundaryInput) : (countWdt s i).fsr2 = s.fsr2 := by
  unfold countWdt; split <;> (try split) <;> rfl
@[simp] theorem countWdt_prodh (s : State) (i : BoundaryInput) : (countWdt s i).prodh = s.prodh := by
  unfold countWdt; split <;> (try split) <;> rfl
@[simp] theorem countWdt_prodl (s : State) (i : BoundaryInput) : (countWdt s i).prodl = s.prodl := by
  unfold countWdt; split <;> (try split) <;> rfl
@[simp] theorem countWdt_pclath (s : State) (i : BoundaryInput) : (countWdt s i).pclath = s.pclath := by
  unfold countWdt; split <;> (try split) <;> rfl
@[simp] theorem countWdt_pclatu (s : State) (i : BoundaryInput) : (countWdt s i).pclatu = s.pclatu := by
  unfold countWdt; split <;> (try split) <;> rfl
@[simp] theorem countWdt_tblptr (s : State) (i : BoundaryInput) : (countWdt s i).tblptr = s.tblptr := by
  unfold countWdt; split <;> (try split) <;> rfl
@[simp] theorem countWdt_tablat (s : State) (i : BoundaryInput) : (countWdt s i).tablat = s.tablat := by
  unfold countWdt; split <;> (try split) <;> rfl
@[simp] theorem countWdt_hold (s : State) (i : BoundaryInput) : (countWdt s i).hold = s.hold := by
  unfold countWdt; split <;> (try split) <;> rfl
@[simp] theorem countWdt_stack (s : State) (i : BoundaryInput) : (countWdt s i).stack = s.stack := by
  unfold countWdt; split <;> (try split) <;> rfl
@[simp] theorem countWdt_ws (s : State) (i : BoundaryInput) : (countWdt s i).ws = s.ws := by
  unfold countWdt; split <;> (try split) <;> rfl
@[simp] theorem countWdt_statuss (s : State) (i : BoundaryInput) : (countWdt s i).statuss = s.statuss := by
  unfold countWdt; split <;> (try split) <;> rfl
@[simp] theorem countWdt_bsrs (s : State) (i : BoundaryInput) : (countWdt s i).bsrs = s.bsrs := by
  unfold countWdt; split <;> (try split) <;> rfl
@[simp] theorem countWdt_gieh (s : State) (i : BoundaryInput) : (countWdt s i).gieh = s.gieh := by
  unfold countWdt; split <;> (try split) <;> rfl
@[simp] theorem countWdt_giel (s : State) (i : BoundaryInput) : (countWdt s i).giel = s.giel := by
  unfold countWdt; split <;> (try split) <;> rfl
@[simp] theorem countWdt_intLevel (s : State) (i : BoundaryInput) : (countWdt s i).intLevel = s.intLevel := by
  unfold countWdt; split <;> (try split) <;> rfl
@[simp] theorem countWdt_wdtClearedAt (s : State) (i : BoundaryInput) : (countWdt s i).wdtClearedAt = s.wdtClearedAt := by
  unfold countWdt; split <;> (try split) <;> rfl
@[simp] theorem countWdt_asleep (s : State) (i : BoundaryInput) : (countWdt s i).asleep = s.asleep := by
  unfold countWdt; split <;> (try split) <;> rfl
@[simp] theorem countWdt_data (s : State) (i : BoundaryInput) : (countWdt s i).data = s.data := by
  unfold countWdt; split <;> (try split) <;> rfl
@[simp] theorem countWdt_prog (s : State) (i : BoundaryInput) : (countWdt s i).prog = s.prog := by
  unfold countWdt; split <;> (try split) <;> rfl
@[simp] theorem countWdt_inputs (s : State) (i : BoundaryInput) : (countWdt s i).inputs = s.inputs := by
  unfold countWdt; split <;> (try split) <;> rfl
@[simp] theorem countWdt_freeIdx (s : State) (i : BoundaryInput) : (countWdt s i).freeIdx = s.freeIdx := by
  unfold countWdt; split <;> (try split) <;> rfl
@[simp] theorem countWdt_cycles (s : State) (i : BoundaryInput) : (countWdt s i).cycles = s.cycles := by
  unfold countWdt; split <;> (try split) <;> rfl

/-! ## doReset: what no reset changes -/

@[simp] theorem doReset_params (k : ResetKind) (s : State) : (doReset k s).params = s.params := rfl
@[simp] theorem doReset_prog (k : ResetKind) (s : State) : (doReset k s).prog = s.prog := rfl
@[simp] theorem doReset_inputs (k : ResetKind) (s : State) : (doReset k s).inputs = s.inputs := rfl
@[simp] theorem doReset_cycles (k : ResetKind) (s : State) : (doReset k s).cycles = s.cycles := rfl

end Sys2Proof.Machine
end

