-- ==== Sys2Proof/Laws/Ops.lean ====
section
/-! SUPPORT. One lemma for each shared operation over the registers, the return stack and program memory, which says all it
can do; the provers cite these and unfold nothing. -/

namespace Sys2Proof.Machine

/-! ## Parity of the pc -/

theorem evenAddr_toNat (v : ProgAddr) : (evenAddr v).toNat = v.toNat - v.toNat % 2 := by
  have h : evenAddr v = (v >>> 1) <<< 1 := by
    ext j hj
    simp only [evenAddr, BitVec.getElem_and, BitVec.getElem_shiftLeft, BitVec.getElem_ushiftRight]
    interval_cases j <;> simp [BitVec.getLsbD_eq_getElem]
  rw [h]
  have := v.isLt
  simp only [BitVec.toNat_shiftLeft, BitVec.toNat_ushiftRight, Nat.shiftLeft_eq, Nat.shiftRight_eq_div_pow]
  omega

@[simp] theorem evenAddr_bit0 (v : ProgAddr) : (evenAddr v).getLsbD 0 = false := by simp [evenAddr]

theorem evenAddr_of_even {v : ProgAddr} (h : v.getLsbD 0 = false) : evenAddr v = v := by
  apply BitVec.eq_of_toNat_eq
  rw [evenAddr_toNat]
  have : v.toNat % 2 = 0 := by
    have := BitVec.getLsbD_eq_getElem (x := v) (i := 0) (by decide)
    rw [h] at this
    have h2 : v.toNat.testBit 0 = false := by simpa [BitVec.getLsbD] using h
    simpa [Nat.testBit_zero] using h2
  omega

/-- Adding an even number keeps bit 0. -/
theorem add_even_bit0 (v n : ProgAddr) (h : n.getLsbD 0 = false) : (v + n).getLsbD 0 = v.getLsbD 0 := by
  simp only [BitVec.getLsbD, BitVec.toNat_add, Nat.testBit_zero, decide_eq_decide, decide_eq_false_iff_not] at *
  omega

theorem branchTarget_bit0 (pc n : ProgAddr) : (branchTarget pc n).getLsbD 0 = pc.getLsbD 0 := by
  simp only [branchTarget, BitVec.getLsbD, BitVec.toNat_add, Nat.testBit_zero, decide_eq_decide,
    BitVec.toNat_ofNat]
  omega

theorem afterSkip_bit0 (pc : ProgAddr) (n : Nat) : (afterSkip pc n).getLsbD 0 = pc.getLsbD 0 := by
  simp only [afterSkip, BitVec.getLsbD, BitVec.toNat_add, Nat.testBit_zero, decide_eq_decide,
    BitVec.toNat_ofNat]
  omega

/-- The relative target in integers (42_control R200). -/
theorem branchTarget_toNat {w : Nat} (hw : w ≤ 21) (pc : ProgAddr) (n : BitVec w) :
    ((branchTarget pc (n.signExtend 21)).toNat : Int) = ((pc.toNat : Int) + 2 + 2 * n.toInt) % 2097152 := by
  have h : (n.signExtend 21).toInt = n.toInt := BitVec.toInt_signExtend_of_le hw
  rw [← h]
  have := (n.signExtend 21).isLt
  simp only [branchTarget, BitVec.toNat_add, BitVec.toNat_ofNat, BitVec.toInt_eq_toNat_cond]
  split <;> omega

/-! ## Bits of a byte -/

/-- Bit `j` of a byte whose bit `k` was replaced. -/
theorem putBit_getLsbD (v : Byte) (k : BitVec 3) (x : Bool) {j : Nat} (hj : j < 8) :
    (putBit v k x).getLsbD j = if j = k.toNat then x else v.getLsbD j := by
  have hm : (bitMask k).getLsbD j = decide (j = k.toNat) := by
    have : k.toNat < 8 := k.isLt
    by_cases h : j = k.toNat
    · subst h; simp [bitMask, hj]
    · simp [bitMask, hj, h]; omega
  by_cases h : j = k.toNat
  · have hm' : (bitMask k).getLsbD j = true := by rw [hm]; exact decide_eq_true h
    cases x <;> simp [putBit, h ▸ hm', h]
  · have hm' : (bitMask k).getLsbD j = false := by rw [hm]; exact decide_eq_false h
    rw [BitVec.getLsbD_eq_getElem hj] at hm'
    cases x <;> simp [putBit, hm', hj, h]

/-! ## Branches and ends -/

/-- A conditional branch always completes. -/
theorem branchIf_eq (c : Bool) (n : BitVec 8) (s : State) :
    branchIf c n s = .next { s with
      pc := if c then branchTarget s.pc (n.signExtend 21) else s.pc + 2#21
      cycles := s.cycles + if c then 2 else 1 } := by
  cases c <;> rfl

theorem literalNext_eq (s : State) :
    literalNext s = .next { s with pc := s.pc + 2#21, cycles := s.cycles + 1 } := rfl

/-! ## The return stack -/

theorem push_ok {s t : State} {v : ProgAddr} :
    s.push v = .ok t ↔ s.stack.length < s.params.stackDepth ∧ t = { s with stack := s.stack ++ [v] } := by
  unfold State.push
  split
  · simp only [reduceCtorEq, false_iff, not_and]
    omega
  · simp only [Except.ok.injEq]
    constructor
    · rintro rfl
      exact ⟨by omega, rfl⟩
    · rintro ⟨-, rfl⟩
      rfl

theorem push_error {s : State} {v : ProgAddr} {e : Fault} :
    s.push v = .error e ↔ s.params.stackDepth ≤ s.stack.length ∧ e = .stackOverflow v := by
  unfold State.push
  split
  · next h => simp [h, eq_comm]
  · next h => simp [h]

theorem pop_ok {s t : State} {v : ProgAddr} :
    s.pop = .ok (v, t) ↔ ∃ rest, s.stack = rest ++ [v] ∧ t = { s with stack := rest } := by
  unfold State.pop
  rcases List.eq_nil_or_concat s.stack with h | ⟨l, a, h⟩
  · simp [h]
  · simp only [h, List.concat_eq_append, List.getLast?_append, List.getLast?_singleton, Option.some_or,
      List.dropLast_concat, Except.ok.injEq, Prod.mk.injEq]
    constructor
    · rintro ⟨rfl, rfl⟩
      exact ⟨l, rfl, rfl⟩
    · rintro ⟨rest, hr, rfl⟩
      obtain ⟨rfl, h2⟩ := List.append_inj' hr rfl
      exact ⟨by simpa using h2, rfl⟩

theorem pop_error {s : State} {e : Fault} : s.pop = .error e ↔ s.stack = [] ∧ e = .stackUnderflow := by
  unfold State.pop
  rcases List.eq_nil_or_concat s.stack with h | ⟨l, a, h⟩
  · simp [h, eq_comm]
  · simp [h]

/-! ## Program memory -/

theorem programByte_ok {s : State} {a : ProgAddr} {v : Byte} :
    programByte s a = .ok v ↔ (a.toNat < s.params.progBytes ∧ v = s.prog.read a.toNat) ∨
      (s.params.progBytes ≤ a.toNat ∧ s.params.unimplProg = .readZero ∧ v = 0x00#8) := by
  unfold programByte
  split
  · next h => simpa [h, Nat.not_le.2 h] using eq_comm
  · next h =>
    cases s.params.unimplProg
    · simp [h]
    · simpa [h, Nat.not_lt.1 h] using eq_comm

theorem programByte_error {s : State} {a : ProgAddr} {e : Fault} :
    programByte s a = .error e ↔
      s.params.progBytes ≤ a.toNat ∧ s.params.unimplProg = .fault ∧ e = .unimplementedProgram a := by
  unfold programByte
  split
  · next h => simp [Nat.not_le.2 h]
  · next h =>
    have hle := Nat.not_lt.1 h
    cases s.params.unimplProg
    · simpa [hle] using eq_comm
    · simp

/-- A fetch depends on program memory and the parameters only. -/
theorem fetchWord_congr {s t : State} (hp : t.params = s.params) (hm : t.prog = s.prog) (a : ProgAddr) :
    fetchWord t a = fetchWord s a := by
  unfold fetchWord
  rw [hp, hm]

theorem fetchInstr_congr {s t : State} (hp : t.params = s.params) (hm : t.prog = s.prog) (a : ProgAddr) :
    fetchInstr t a = fetchInstr s a := by
  unfold fetchInstr
  simp only [fetchWord_congr hp hm]

/-- An instruction that is fetched has one word, or two with a proper second word. -/
theorem fetchInstr_ok {s : State} {a : ProgAddr} {i : Instr} {n : Nat} :
    fetchInstr s a = .ok (i, n) ↔ ∃ w, fetchWord s a = .ok w ∧
      ((firstWord w = .one i ∧ n = 1) ∨
        ∃ t w2, firstWord w = .two t ∧ fetchWord s (a + 2#21) = .ok w2 ∧ secondWord t w2 = some i ∧ n = 2) := by
  unfold fetchInstr
  cases hw : fetchWord s a with
  | error e => simp
  | ok w =>
    cases hf : firstWord w with
    | one j => simp [hf, eq_comm]
    | reserved => simp [hf]
    | two t =>
      cases hw2 : fetchWord s (a + 2#21) with
      | error e => simp [hf]
      | ok w2 => cases h2 : secondWord t w2 <;> simp [hf, h2, eq_comm]

/-- The length of the instruction after the one at the pc. -/
theorem skipWords_ok {s : State} {n : Nat} :
    skipWords s = .ok n ↔ ∃ i, fetchInstr s (s.pc + 2#21) = .ok (i, n) := by
  unfold skipWords
  split
  · next h => simp [h]
  · next h => simp [h]

/-! ## Interrupt entry -/

/-- An interrupt entry that completes had room on the return stack and makes this state. -/
theorem interruptEntry_ok {s t : State} {p : Priority} (h : interruptEntry s p = .ok t) :
    s.stack.length < s.params.stackDepth ∧
      t = { s with
        pc := evenAddr (if p = .high then s.params.vecHigh else s.params.vecLow)
        stack := s.stack ++ [s.pc]
        gieh := if p = .high then false else s.gieh
        giel := if p = .low then false else s.giel
        ws := s.w
        statuss := s.status
        bsrs := s.bsr
        intLevel := s.intLevel.enter p
        asleep := false
        freeIdx := s.freeIdx + 1
        cycles := s.cycles + Config.freeCycles s.freeIdx } := by
  unfold interruptEntry at h
  cases hp : s.push s.pc with
  | error e => simp [hp] at h
  | ok s1 =>
    obtain ⟨hl, rfl⟩ := push_ok.1 hp
    refine ⟨hl, ?_⟩
    rw [hp] at h
    cases p <;> exact (Except.ok.inj h).symm

theorem interruptEntry_error {s : State} {p : Priority} {e : Fault} :
    interruptEntry s p = .error e ↔ s.params.stackDepth ≤ s.stack.length ∧ e = .stackOverflow s.pc := by
  unfold interruptEntry
  cases hp : s.push s.pc with
  | error e' =>
    obtain ⟨h, rfl⟩ := push_error.1 hp
    simp [h, eq_comm]
  | ok s1 =>
    obtain ⟨h, -⟩ := push_ok.1 hp
    simp [Nat.not_le.2 h]

/-! ## Reset -/

@[simp] theorem doReset_pc (k : ResetKind) (s : State) : (doReset k s).pc = evenAddr s.params.resetVector := rfl

@[simp] theorem doReset_stack (k : ResetKind) (s : State) : (doReset k s).stack = [] := rfl

@[simp] theorem doReset_asleep (k : ResetKind) (s : State) : (doReset k s).asleep = false := rfl

@[simp] theorem doReset_intLevel (k : ResetKind) (s : State) : (doReset k s).intLevel = .none := rfl

/-- The two parts of a 12-bit register made of four bits and a byte. -/
theorem fsr_parts (a : BitVec 4) (b : BitVec 8) :
    (a ++ b : BitVec 12).extractLsb' 8 4 = a ∧ (a ++ b : BitVec 12).extractLsb' 0 8 = b := by
  have ha := a.isLt
  have hb := b.isLt
  have h : (a ++ b : BitVec 12).toNat = 256 * a.toNat + b.toNat := by
    rw [BitVec.toNat_append, ← Nat.shiftLeft_add_eq_or_of_lt hb, Nat.shiftLeft_eq, Nat.mul_comm]
  constructor <;> apply BitVec.eq_of_toNat_eq <;>
    rw [BitVec.extractLsb'_toNat, h, Nat.shiftRight_eq_div_pow] <;> omega

/-- The parts of an FSR after a reset, each by its own entry. -/
theorem resetFsr_parts (h : ResetValue (BitVec 4)) (l : ResetValue Byte) (old : BitVec 12) (a b : Nat) :
    (resetFsr h l old a b).extractLsb' 8 4 = h.pick (old.extractLsb' 8 4) (BitVec.ofNat 4 a) ∧
      (resetFsr h l old a b).extractLsb' 0 8 = l.pick (old.extractLsb' 0 8) (freeByte b) := fsr_parts _ _

/-- Data memory after a reset, by the entry of the kind's column. -/
theorem doReset_data (k : ResetKind) (s : State) :
    (doReset k s).data =
      resetData (resetRow k s).data (min s.params.ramBytes 0xF80) s.data (Config.freeAtReset s.freeIdx) := rfl

/-- Whatever the entry, data memory after a reset has the canonical form if it had it before. -/
theorem wf_resetData {m : Memory} (h : m.wf) (r : ResetValue (List (Nat × Byte))) (n : Nat) (x : Nat → Nat) :
    (resetData r n m x).wf := by
  cases r
  · exact Memory.wf_ofCells _ _
  · exact Memory.wf_tabulate _ _
  · exact h

/-- Whatever the entry, data memory after a reset lists addresses below its size if it did before. -/
theorem below_resetData {m : Memory} {n : Nat} (h : m.below n) (r : ResetValue (List (Nat × Byte))) (x : Nat → Nat) :
    (resetData r n m x).below n := by
  cases r
  · exact Memory.below_ofCells _ _
  · exact Memory.below_tabulate _ _
  · exact h

/-- A time-out that is heard comes from an enabled watchdog, to a sleeping core or after the period. -/
theorem timeOutHeard_iff {s : State} {x : BoundaryInput} :
    timeOutHeard s x = true ↔ x.wdtTimeout = true ∧ s.params.wdtEnabled = true ∧
      (s.asleep = true ∨ s.params.wdtPeriod ≤ s.cycles - s.wdtClearedAt) := by
  simp [timeOutHeard, and_assoc]

/-! ## One step -/

theorem step_eq (s : State) : step s = boundaryStep s := rfl

/-- With no move of the environment left, the step is the core's own. -/
theorem step_of_inputs_nil {s : State} (h : s.inputs = []) : step s = runCore s := by
  unfold step boundaryStep
  rw [h]

/-- A move of the environment that makes an event is the step. -/
theorem step_of_event {s : State} {x : BoundaryInput} {rest : List BoundaryInput} {r : Except Fault State}
    (h : s.inputs = x :: rest) (he : boundaryEvent (countWdt { s with inputs := rest } x) x = some r) :
    step s = outcome r := by
  unfold step boundaryStep
  rw [h]
  simp only [he]

/-- A move of the environment that makes no event leaves the step to the core. -/
theorem step_of_no_event {s : State} {x : BoundaryInput} {rest : List BoundaryInput}
    (h : s.inputs = x :: rest) (he : boundaryEvent (countWdt { s with inputs := rest } x) x = none) :
    step s = runCore (countWdt { s with inputs := rest } x) := by
  unfold step boundaryStep
  rw [h]
  simp only [he]

/-- Awake, with an instruction at the pc, the core's own move is `exec` of it. -/
theorem runCore_awake {s : State} {i : Instr} {n : Nat} (ha : s.asleep = false)
    (hf : fetchInstr s s.pc = .ok (i, n)) : runCore s = exec i s := by
  unfold runCore
  rw [hf, ha]
  rfl

/-- The core's own move that gives a next state: asleep it is the same state, awake it is `exec` of the instruction at the
pc. -/
theorem runCore_next {s t : State} (h : runCore s = .next t) :
    (s.asleep = true ∧ t = s) ∨ (s.asleep = false ∧ ∃ i n, fetchInstr s s.pc = .ok (i, n) ∧ exec i s = .next t) := by
  unfold runCore at h
  split at h
  · next ha => exact .inl ⟨ha, (Host.Outcome.next.inj h).symm⟩
  · next ha =>
    cases hf : fetchInstr s s.pc with
    | error e => simp [hf] at h
    | ok q =>
      obtain ⟨i, n⟩ := q
      rw [hf] at h
      exact .inr ⟨by simpa using ha, i, n, rfl, h⟩

/-- What an event at a boundary is. -/
theorem boundaryEvent_some {s : State} {x : BoundaryInput} {r : Except Fault State} (h : boundaryEvent s x = some r) :
    (∃ k, x.reset = some k ∧ r = .ok (doReset k.kind s).freeTick) ∨
    (x.reset = none ∧ timeOutHeard s x = true ∧
      r = .ok (if s.asleep then watchdogWake s else (doReset .wdt s).freeTick)) ∨
    (∃ p, x.reset = none ∧ accepted s x = some p ∧ r = interruptEntry s p) ∨
    (x.reset = none ∧ accepted s x = none ∧ s.asleep = true ∧ r = .ok (requestWake s)) := by
  unfold boundaryEvent at h
  cases hr : x.reset with
  | some k =>
    simp only [hr, Option.some.injEq] at h
    exact .inl ⟨k, rfl, h.symm⟩
  | none =>
    simp only [hr] at h
    split at h
    · next hw =>
      exact .inr (.inl ⟨rfl, hw, (Option.some.inj h).symm⟩)
    · cases ha : accepted s x with
      | some p =>
        simp only [ha, Option.some.injEq] at h
        exact .inr (.inr (.inl ⟨p, rfl, rfl, h.symm⟩))
      | none =>
        simp only [ha] at h
        split at h
        · next hs =>
          simp only [Bool.and_eq_true] at hs
          exact .inr (.inr (.inr ⟨rfl, rfl, hs.1.1, (Option.some.inj h).symm⟩))
        · exact absurd h (by simp)

end Sys2Proof.Machine
end

