-- ==== Sys2Proof/Laws/Operands.lean ====
section
/-! SUPPORT. One lemma for each operand form and each shape of instruction, which says all it can do. -/

namespace Sys2Proof.Machine

/-! ## Places -/

/-- A place that an access reaches is memory that exists, or a register that the map and the switches give, or nothing. -/
theorem cellAt_ok {p : Params} {i : DataAddr} {c : Cell} (h : cellAt p i = .ok c) :
    (c = .ram i ∧ i.toNat < min p.ramBytes 0xF80) ∨
    (c = .void ∧ i.toNat < 0xF80 ∧ p.ramBytes ≤ i.toNat ∧ p.unimplData = .readZero) ∨
    (∃ r, c = .sfr r ∧ 0xF80 ≤ i.toNat ∧ p.sfrAt i = some r ∧ p.models r = true) := by
  unfold cellAt at h
  split at h
  · next h1 =>
    split at h
    · next h2 =>
      cases h
      exact .inl ⟨rfl, by omega⟩
    · next h2 =>
      cases hu : p.unimplData with
      | fault => simp [hu] at h
      | readZero =>
        simp only [hu, Except.ok.injEq] at h
        exact .inr (.inl ⟨h.symm, h1, by omega, rfl⟩)
  · next h1 =>
    cases hs : p.sfrAt i with
    | none => simp [hs] at h
    | some r =>
      simp only [hs] at h
      split at h
      · next hm =>
        cases h
        exact .inr (.inr ⟨r, rfl, by omega, rfl, hm⟩)
      · simp at h

theorem cellAt_ram {p : Params} {i : DataAddr} (h : i.toNat < min p.ramBytes 0xF80) : cellAt p i = .ok (.ram i) := by
  unfold cellAt
  rw [if_pos (by omega), if_pos (by omega)]

theorem cellAt_sfr {p : Params} {i : DataAddr} {r : Sfr} (h : 0xF80 ≤ i.toNat) (hs : p.sfrAt i = some r)
    (hm : p.models r = true) : cellAt p i = .ok (.sfr r) := by
  unfold cellAt
  rw [if_neg (by omega), hs]
  simp [hm]

/-- Locating an operand changes nothing but FSRs. -/
theorem pointer_frame (s : State) (m : IndMode) (n : FsrNum) :
    (pointer s m n).2.1 = s ∨ ∃ v, (pointer s m n).2.1 = s.setFsr n v := by
  cases m <;> first | exact .inl rfl | exact .inr ⟨_, rfl⟩

/-- An operand that is located lies at its address, with the state unchanged, or where an indirect register points, with at
most its FSR stepped. -/
theorem locate_ok {s t : State} {i : DataAddr} {l : Loc} (h : locate s i = .ok (l, t)) :
    (cellAt s.params i = .ok l.cell ∧ l.post = none ∧ t = s ∧ ∀ m n, l.cell ≠ .sfr (.ind m n)) ∨
    (∃ m n c, cellAt s.params i = .ok (.sfr (.ind m n)) ∧ cellAt s.params (pointer s m n).1 = .ok c ∧
      l.cell = (match c with | .sfr (.ind _ _) => .void | c => c) ∧ l.post = (pointer s m n).2.2 ∧
      t = (pointer s m n).2.1) := by
  unfold locate at h
  split at h
  · simp at h
  · next m n hc =>
    refine .inr ⟨m, n, ?_⟩
    dsimp only at h
    split at h
    · simp at h
    · next hp =>
      simp only [Except.ok.injEq, Prod.mk.injEq] at h
      obtain ⟨rfl, rfl⟩ := h
      exact ⟨_, hc, hp, rfl, rfl, rfl⟩
    · next c hne hp =>
      simp only [Except.ok.injEq, Prod.mk.injEq] at h
      obtain ⟨rfl, rfl⟩ := h
      refine ⟨c, hc, hp, ?_, rfl, rfl⟩
      split
      · next m' n' => exact absurd rfl (hne m' n')
      · rfl
  · next c hne hc =>
    simp only [Except.ok.injEq, Prod.mk.injEq] at h
    obtain ⟨rfl, rfl⟩ := h
    exact .inl ⟨hc, rfl, rfl, fun m n e => hne m n e⟩

/-- A located operand is never an indirect register itself; in memory it lies in memory that exists. -/
theorem locate_cell {s t : State} {i : DataAddr} {l : Loc} (h : locate s i = .ok (l, t)) :
    (∀ m n, l.cell ≠ .sfr (.ind m n)) ∧ ∀ ea, l.cell = .ram ea → ea.toNat < min s.params.ramBytes 0xF80 := by
  rcases locate_ok h with ⟨hc, -, -, hn⟩ | ⟨m, n, c, -, hc, hl, -, -⟩
  · refine ⟨hn, fun ea he => ?_⟩
    rw [he] at hc
    rcases cellAt_ok hc with ⟨h1, h2⟩ | ⟨h1, -⟩ | ⟨r, h1, -⟩ <;> simp_all
  · rw [hl]
    refine ⟨fun m' n' => ?_, fun ea he => ?_⟩
    · split
      · simp
      · next hne => exact fun e => hne m' n' e
    · split at he
      · simp at he
      · subst he
        rcases cellAt_ok hc with ⟨h1, h2⟩ | ⟨h1, -⟩ | ⟨r, h1, -⟩ <;> simp_all

/-- Locating changes FSRs only. -/
theorem locate_frame {s t : State} {i : DataAddr} {l : Loc} (h : locate s i = .ok (l, t)) :
    t = s ∨ ∃ n v, t = s.setFsr n v := by
  rcases locate_ok h with ⟨-, -, rfl, -⟩ | ⟨m, n, c, -, -, -, -, rfl⟩
  · exact .inl rfl
  · rcases pointer_frame s m n with h | ⟨v, h⟩
    · exact .inl h
    · exact .inr ⟨n, v, h⟩

theorem locate_ram {s : State} {i : DataAddr} (h : InRam s i) : locate s i = .ok (⟨.ram i, none⟩, s) := by
  unfold locate
  rw [cellAt_ram h]

/-- The step of an FSR after the use changes that FSR only. -/
theorem settle_frame (l : Loc) (s : State) : l.settle s = s ∨ ∃ n v, l.settle s = s.setFsr n v := by
  unfold Loc.settle
  split
  · exact .inl rfl
  · exact .inr ⟨_, _, rfl⟩

/-! ## Reads and writes -/

/-- A read changes nothing but the latches (PCL) and the counter of free values (INTCON). -/
theorem readCell_frame (s : State) (c : Cell) :
    (readCell s c).2 = { s with
      pclath := (readCell s c).2.pclath, pclatu := (readCell s c).2.pclatu, freeIdx := (readCell s c).2.freeIdx } := by
  cases c with
  | sfr r => cases r <;> rfl
  | _ => rfl

/-- A write of a file register, by what stands at the place. -/
theorem writeCell_cases (s : State) (c : Cell) (v : Byte) :
    (∃ i, c = .ram i ∧ writeCell s c v = { s with data := s.data.write i.toNat v }) ∨
    (∃ r, c = .sfr r ∧ writeCell s c v = writeSfr s r v) ∨ (c = .void ∧ writeCell s c v = s) := by
  cases c with
  | ram i => exact .inl ⟨i, rfl, rfl⟩
  | sfr r => exact .inr (.inl ⟨r, rfl, rfl⟩)
  | void => exact .inr (.inr ⟨rfl, rfl⟩)

/-- A register write leaves these alone. -/
theorem writeSfr_frame (s : State) (r : Sfr) (v : Byte) :
    (writeSfr s r v).params = s.params ∧ (writeSfr s r v).data = s.data ∧ (writeSfr s r v).prog = s.prog ∧
    (writeSfr s r v).stack.length = s.stack.length ∧ (writeSfr s r v).hold = s.hold ∧
    (writeSfr s r v).ws = s.ws ∧ (writeSfr s r v).statuss = s.statuss ∧ (writeSfr s r v).bsrs = s.bsrs ∧
    (writeSfr s r v).intLevel = s.intLevel ∧ (writeSfr s r v).toBit = s.toBit ∧ (writeSfr s r v).pdBit = s.pdBit ∧
    (writeSfr s r v).wdt = s.wdt ∧ (writeSfr s r v).wdtps = s.wdtps ∧
    (writeSfr s r v).wdtClearedAt = s.wdtClearedAt ∧ (writeSfr s r v).asleep = s.asleep ∧
    (writeSfr s r v).inputs = s.inputs ∧ (writeSfr s r v).freeIdx = s.freeIdx ∧ (writeSfr s r v).cycles = s.cycles := by
  cases r <;> simp [writeSfr]

/-- A register write keeps the pc even. -/
theorem writeSfr_pc_even {s : State} (h : s.pc.getLsbD 0 = false) (r : Sfr) (v : Byte) :
    (writeSfr s r v).pc.getLsbD 0 = false := by
  have hpcl : (s.pclatu ++ (s.pclath ++ (v &&& 0xFE#8)) : ProgAddr).getLsbD 0 = false := by
    simp only [BitVec.getLsbD_append]
    simp
  cases r <;> simp only [writeSfr, State.setTos_pc, State.setFsr_pc] <;> first | exact h | exact hpcl

/-! ## Shapes -/

/-- Reading a file operand: it was located, then read. -/
theorem fetchOperand_ok {s t : State} {a : Access} {f : BitVec 8} {l : Loc} {v : Byte} :
    fetchOperand s a f = .ok (l, v, t) ↔
      ∃ s1, locate (s.advance 2#21) (effectiveAddr s a f) = .ok (l, s1) ∧ v = (readCell s1 l.cell).1 ∧
        t = (readCell s1 l.cell).2 := by
  unfold fetchOperand
  cases h : locate (s.advance 2#21) (effectiveAddr s a f) with
  | error e => simp
  | ok q =>
    obtain ⟨l', s1⟩ := q
    simp only [Except.ok.injEq, Prod.mk.injEq]
    constructor
    · rintro ⟨rfl, rfl, rfl⟩
      exact ⟨s1, ⟨rfl, rfl⟩, rfl, rfl⟩
    · rintro ⟨s2, ⟨rfl, rfl⟩, rfl, rfl⟩
      exact ⟨rfl, rfl, rfl⟩

theorem modifyFile_next {d : Dest} {a : Access} {f : BitVec 8} {op : Byte → Byte × (Status → Status)} {s t : State} :
    modifyFile d a f op s = .next t ↔ ∃ l v s1, fetchOperand s a f = .ok (l, v, s1) ∧
      t = (l.settle { writeDest s1 d l.cell (op v).1 with
        status := (op v).2 (writeDest s1 d l.cell (op v).1).status }).tick (fileCycles d l.cell) := by
  unfold modifyFile
  cases h : fetchOperand s a f with
  | error e => simp
  | ok q =>
    obtain ⟨l, v, s1⟩ := q
    simp only [Host.Outcome.next.injEq, Except.ok.injEq, Prod.mk.injEq]
    constructor
    · rintro rfl
      exact ⟨l, v, s1, ⟨rfl, rfl, rfl⟩, rfl⟩
    · rintro ⟨_, _, _, ⟨rfl, rfl, rfl⟩, rfl⟩
      rfl

theorem storeFile_next {a : Access} {f : BitVec 8} {v : Byte} {g : Status → Status} {s t : State} :
    storeFile a f v g s = .next t ↔ ∃ l s1, locate (s.advance 2#21) (effectiveAddr s a f) = .ok (l, s1) ∧
      t = (l.settle { writeCell s1 l.cell v with status := g (writeCell s1 l.cell v).status }).tick
        (fileCycles .f l.cell) := by
  unfold storeFile
  cases h : locate (s.advance 2#21) (effectiveAddr s a f) with
  | error e => simp
  | ok q =>
    obtain ⟨l, s1⟩ := q
    simp only [Host.Outcome.next.injEq, Except.ok.injEq, Prod.mk.injEq]
    constructor
    · rintro rfl
      exact ⟨l, s1, ⟨rfl, rfl⟩, rfl⟩
    · rintro ⟨_, _, ⟨rfl, rfl⟩, rfl⟩
      rfl

theorem useFile_next {a : Access} {f : BitVec 8} {k : Byte → State → State} {s t : State} :
    useFile a f k s = .next t ↔ ∃ l v s1, fetchOperand s a f = .ok (l, v, s1) ∧ t = (k v (l.settle s1)).tick 1 := by
  unfold useFile
  cases h : fetchOperand s a f with
  | error e => simp
  | ok q =>
    obtain ⟨l, v, s1⟩ := q
    simp only [Host.Outcome.next.injEq, Except.ok.injEq, Prod.mk.injEq]
    constructor
    · rintro rfl
      exact ⟨l, v, s1, ⟨rfl, rfl, rfl⟩, rfl⟩
    · rintro ⟨_, _, _, ⟨rfl, rfl, rfl⟩, rfl⟩
      rfl

theorem testFile_next {a : Access} {f : BitVec 8} {c : Byte → Bool} {s t : State} :
    testFile a f c s = .next t ↔ ∃ l v s1, fetchOperand s a f = .ok (l, v, s1) ∧
      ((c v = false ∧ t = (l.settle s1).tick 1) ∨
        ∃ n, c v = true ∧ skipWords s = .ok n ∧ t = { l.settle s1 with pc := afterSkip s.pc n }.tick (1 + n)) := by
  unfold testFile
  cases h : fetchOperand s a f with
  | error e => simp
  | ok q =>
    obtain ⟨l, v, s1⟩ := q
    simp only [Except.ok.injEq, Prod.mk.injEq]
    have hex : ∀ P : Loc → Byte → State → Prop,
        (∃ l' v' s1', (l = l' ∧ v = v' ∧ s1 = s1') ∧ P l' v' s1') ↔ P l v s1 :=
      fun P => ⟨by rintro ⟨_, _, _, ⟨rfl, rfl, rfl⟩, h⟩; exact h, fun h => ⟨_, _, _, ⟨rfl, rfl, rfl⟩, h⟩⟩
    rw [hex]
    cases hc : c v with
    | false => simp [eq_comm]
    | true => cases hs : skipWords s <;> simp [eq_comm]

theorem countFile_next {d : Dest} {a : Access} {f : BitVec 8} {op : Byte → Byte} {c : Byte → Bool} {s t : State} :
    countFile d a f op c s = .next t ↔ ∃ l v s1, fetchOperand s a f = .ok (l, v, s1) ∧
      ((c (op v) = false ∧ t = (l.settle (writeDest s1 d l.cell (op v))).tick (fileCycles d l.cell)) ∨
        ∃ n, c (op v) = true ∧ skipWords s = .ok n ∧
          t = skipOver d l.cell s.pc n (l.settle (writeDest s1 d l.cell (op v)))) := by
  unfold countFile
  cases h : fetchOperand s a f with
  | error e => simp
  | ok q =>
    obtain ⟨l, v, s1⟩ := q
    simp only [Except.ok.injEq, Prod.mk.injEq]
    have hex : ∀ P : Loc → Byte → State → Prop,
        (∃ l' v' s1', (l = l' ∧ v = v' ∧ s1 = s1') ∧ P l' v' s1') ↔ P l v s1 :=
      fun P => ⟨by rintro ⟨_, _, _, ⟨rfl, rfl, rfl⟩, h⟩; exact h, fun h => ⟨_, _, _, ⟨rfl, rfl, rfl⟩, h⟩⟩
    rw [hex]
    cases hc : c (op v) with
    | false => simp [eq_comm]
    | true => cases hs : skipWords s <;> simp [eq_comm]

/-- A taken skip over `n` words changes the pc, the cycles and the counter of free values only, and takes two cycles at
least and 1 + n at most. -/
theorem skipOver_frame (d : Dest) (c : Cell) (pc : ProgAddr) {n : Nat} (hn : 0 < n) (s : State) :
    { skipOver d c pc n s with pc := s.pc, cycles := s.cycles, freeIdx := s.freeIdx } = s ∧
      s.cycles + 2 ≤ (skipOver d c pc n s).cycles ∧ (skipOver d c pc n s).cycles ≤ s.cycles + 1 + n := by
  have := Nat.mod_lt (Config.freeCycles s.freeIdx) hn
  unfold skipOver
  split <;> refine ⟨rfl, ?_, ?_⟩ <;> simp only [State.tick_cycles] <;> omega

/-- MOVFF that completes: the source located and read, its pointer stepped, then the destination located and written. -/
theorem execMovff_next {fs fd : BitVec 12} {s t : State} :
    execMovff fs fd s = .next t ↔ movffForbidden s.params fd = false ∧
      ∃ l s1 m s2, locate (s.advance 4#21) fs = .ok (l, s1) ∧
        locate (l.settle (readCell s1 l.cell).2) fd = .ok (m, s2) ∧
        t = (m.settle (writeCell s2 m.cell (readCell s1 l.cell).1)).tick 2 := by
  unfold execMovff
  cases hf : movffForbidden s.params fd with
  | true => simp
  | false =>
    cases h : locate (s.advance 4#21) fs with
    | error e => simp
    | ok q =>
      obtain ⟨l, s1⟩ := q
      have hex : ∀ P : Loc → State → Prop,
          (∃ l' s1', (l = l' ∧ s1 = s1') ∧ P l' s1') ↔ P l s1 :=
        fun P => ⟨by rintro ⟨_, _, ⟨rfl, rfl⟩, h⟩; exact h, fun h => ⟨_, _, ⟨rfl, rfl⟩, h⟩⟩
      cases h2 : locate (l.settle (readCell s1 l.cell).2) fd with
      | error e => simp [h2]
      | ok q2 =>
        obtain ⟨m, s2⟩ := q2
        simp [h2, eq_comm]

theorem tableRead_next {p q : ProgAddr} {s t : State} :
    tableRead p q s = .next t ↔ ∃ v, programByte s p = .ok v ∧
      t = { s with pc := s.pc + 2#21, cycles := s.cycles + 2, tablat := v, tblptr := q } := by
  unfold tableRead
  cases h : programByte s p <;> simp [eq_comm]
  rfl

theorem tableWrite_eq (p q : ProgAddr) (s : State) :
    tableWrite p q s = .next { s with
      pc := s.pc + 2#21, cycles := s.cycles + 2, hold := s.hold.set (p.extractLsb' 0 3) s.tablat, tblptr := q } := rfl

end Sys2Proof.Machine
end

