-- ==== Sys2Proof/Tests/Slice0.lean ====
section
/-! SUPPORT. The model's own tests: ill-formed terms, the decoding of words written out from 30_encoding R128, the worked
examples and vectors of 95_test_vectors and 96_test_vectors_derived, one step each, and for every statement with hypotheses
a state and operands that meet them. -/

namespace Sys2Proof.Tests

open Sys2Proof.Machine

/-- The words decode to the instruction and to nothing more. -/
def reads (ws : List Word) (i : Instr) : Bool :=
  match decode ws with
  | .ok (j, []) => decide (j = i)
  | _ => false

/-- A next state with a property. -/
def answers (o : Host.Outcome State Fault Refusal) (p : State → Bool) : Bool :=
  match o with
  | .next t => p t
  | _ => false

/-- This fault. -/
def faults (o : Host.Outcome State Fault Refusal) (e : Fault) : Bool :=
  match o with
  | .fault g => decide (g = e)
  | _ => false

/-- The start of most vectors: pc = 0x0100, WREG and x[0x020] as given, STATUS = (N, OV, Z, DC, C). -/
def cell (w v : Byte) (st : Status) : State :=
  { State.reset with pc := 0x100#21, w := w, status := st, data := Memory.write [] 0x20 v }

/-- Words in program memory from an address on. -/
def load (s : State) (a : ProgAddr) (ws : List Word) : State :=
  { s with prog := storeBytes s.prog a (bytesOfWords ws) }

/-- A boundary at which the environment does nothing. -/
def idle : BoundaryInput := ⟨false, false, false, none, none⟩

/-! ## Well-formedness -/

theorem test_lfsr_3_ill_formed : (Instr.lfsr 3#2 0x123#12).wellFormed = false := by decide

theorem test_lfsr_2_well_formed : (Instr.lfsr 2#2 0x123#12).wellFormed = true := by decide

/-! ## Decoding, every constructor -/

theorem test_decode_addwf : reads [0b0010010010100011#16] (.addwf .w .access 0xA3#8) = true := by decide

theorem test_decode_addwfc : reads [0b0010001110100011#16] (.addwfc .f .banked 0xA3#8) = true := by decide

theorem test_decode_andwf : reads [0b0001010110100011#16] (.andwf .w .banked 0xA3#8) = true := by decide

theorem test_decode_clrf : reads [0b0110101010100011#16] (.clrf .access 0xA3#8) = true := by decide

theorem test_decode_comf : reads [0b0001110110100011#16] (.comf .w .banked 0xA3#8) = true := by decide

theorem test_decode_cpfseq : reads [0b0110001110100011#16] (.cpfseq .banked 0xA3#8) = true := by decide

theorem test_decode_cpfsgt : reads [0b0110010010100011#16] (.cpfsgt .access 0xA3#8) = true := by decide

theorem test_decode_cpfslt : reads [0b0110000110100011#16] (.cpfslt .banked 0xA3#8) = true := by decide

theorem test_decode_decf : reads [0b0000010110100011#16] (.decf .w .banked 0xA3#8) = true := by decide

theorem test_decode_decfsz : reads [0b0010111010100011#16] (.decfsz .f .access 0xA3#8) = true := by decide

theorem test_decode_decfsnz : reads [0b0100110110100011#16] (.decfsnz .w .banked 0xA3#8) = true := by decide

theorem test_decode_incf : reads [0b0010101110100011#16] (.incf .f .banked 0xA3#8) = true := by decide

theorem test_decode_incfsz : reads [0b0011110010100011#16] (.incfsz .w .access 0xA3#8) = true := by decide

theorem test_decode_infsnz : reads [0b0100101110100011#16] (.infsnz .f .banked 0xA3#8) = true := by decide

theorem test_decode_iorwf : reads [0b0001000110100011#16] (.iorwf .w .banked 0xA3#8) = true := by decide

theorem test_decode_movf : reads [0b0101001010100011#16] (.movf .f .access 0xA3#8) = true := by decide

theorem test_decode_movff : reads [0b1100000110100011#16, 0b1111111111101000#16] (.movff 0x1A3#12 0xFE8#12) = true := by decide

theorem test_decode_movwf : reads [0b0110111110100011#16] (.movwf .banked 0xA3#8) = true := by decide

theorem test_decode_mulwf : reads [0b0000001010100011#16] (.mulwf .access 0xA3#8) = true := by decide

theorem test_decode_negf : reads [0b0110110110100011#16] (.negf .banked 0xA3#8) = true := by decide

theorem test_decode_rlcf : reads [0b0011010110100011#16] (.rlcf .w .banked 0xA3#8) = true := by decide

theorem test_decode_rlncf : reads [0b0100011010100011#16] (.rlncf .f .access 0xA3#8) = true := by decide

theorem test_decode_rrcf : reads [0b0011000110100011#16] (.rrcf .w .banked 0xA3#8) = true := by decide

theorem test_decode_rrncf : reads [0b0100001110100011#16] (.rrncf .f .banked 0xA3#8) = true := by decide

theorem test_decode_setf : reads [0b0110100010100011#16] (.setf .access 0xA3#8) = true := by decide

theorem test_decode_subfwb : reads [0b0101011110100011#16] (.subfwb .f .banked 0xA3#8) = true := by decide

theorem test_decode_subwf : reads [0b0101110110100011#16] (.subwf .w .banked 0xA3#8) = true := by decide

theorem test_decode_subwfb : reads [0b0101101010100011#16] (.subwfb .f .access 0xA3#8) = true := by decide

theorem test_decode_swapf : reads [0b0011100110100011#16] (.swapf .w .banked 0xA3#8) = true := by decide

theorem test_decode_tstfsz : reads [0b0110011110100011#16] (.tstfsz .banked 0xA3#8) = true := by decide

theorem test_decode_xorwf : reads [0b0001100010100011#16] (.xorwf .w .access 0xA3#8) = true := by decide

theorem test_decode_bcf : reads [0b1001110110100011#16] (.bcf 6#3 .banked 0xA3#8) = true := by decide

theorem test_decode_bsf : reads [0b1000110110100011#16] (.bsf 6#3 .banked 0xA3#8) = true := by decide

theorem test_decode_btfsc : reads [0b1011110010100011#16] (.btfsc 6#3 .access 0xA3#8) = true := by decide

theorem test_decode_btfss : reads [0b1010110110100011#16] (.btfss 6#3 .banked 0xA3#8) = true := by decide

theorem test_decode_btg : reads [0b0111110110100011#16] (.btg 6#3 .banked 0xA3#8) = true := by decide

theorem test_decode_bc : reads [0b1110001010100011#16] (.bc 0xA3#8) = true := by decide

theorem test_decode_bn : reads [0b1110011010100011#16] (.bn 0xA3#8) = true := by decide

theorem test_decode_bnc : reads [0b1110001110100011#16] (.bnc 0xA3#8) = true := by decide

theorem test_decode_bnn : reads [0b1110011110100011#16] (.bnn 0xA3#8) = true := by decide

theorem test_decode_bnov : reads [0b1110010110100011#16] (.bnov 0xA3#8) = true := by decide

theorem test_decode_bnz : reads [0b1110000110100011#16] (.bnz 0xA3#8) = true := by decide

theorem test_decode_bov : reads [0b1110010010100011#16] (.bov 0xA3#8) = true := by decide

theorem test_decode_bz : reads [0b1110000010100011#16] (.bz 0xA3#8) = true := by decide

theorem test_decode_bra : reads [0b1101010110100011#16] (.bra 0x5A3#11) = true := by decide

theorem test_decode_call : reads [0b1110110110100011#16, 0b1111000000010010#16] (.call true 0x012A3#20) = true := by decide

theorem test_decode_clrwdt : reads [0b0000000000000100#16] (.clrwdt) = true := by decide

theorem test_decode_goto : reads [0b1110111110100011#16, 0b1111100000000001#16] (.goto 0x801A3#20) = true := by decide

theorem test_decode_daw : reads [0b0000000000000111#16] (.daw) = true := by decide

theorem test_decode_nop : reads [0b0000000000000000#16] (.nop) = true := by decide

theorem test_decode_nopF : reads [0b1111000110100011#16] (.nopF 0x1A3#12) = true := by decide

theorem test_decode_pop : reads [0b0000000000000110#16] (.pop) = true := by decide

theorem test_decode_push : reads [0b0000000000000101#16] (.push) = true := by decide

theorem test_decode_rcall : reads [0b1101110110100011#16] (.rcall 0x5A3#11) = true := by decide

theorem test_decode_reset : reads [0b0000000011111111#16] (.reset) = true := by decide

theorem test_decode_retlw : reads [0b0000110010100011#16] (.retlw 0xA3#8) = true := by decide

theorem test_decode_retfie : reads [0b0000000000010001#16] (.retfie true) = true := by decide

theorem test_decode_ret : reads [0b0000000000010011#16] (.ret true) = true := by decide

theorem test_decode_sleep : reads [0b0000000000000011#16] (.sleep) = true := by decide

theorem test_decode_addlw : reads [0b0000111110100011#16] (.addlw 0xA3#8) = true := by decide

theorem test_decode_andlw : reads [0b0000101110100011#16] (.andlw 0xA3#8) = true := by decide

theorem test_decode_iorlw : reads [0b0000100110100011#16] (.iorlw 0xA3#8) = true := by decide

theorem test_decode_movlb : reads [0b0000000110100011#16] (.movlb 0xA3#8) = true := by decide

theorem test_decode_lfsr : reads [0b1110111000101011#16, 0b1111000010100011#16] (.lfsr 2#2 0xBA3#12) = true := by decide

theorem test_decode_movlw : reads [0b0000111010100011#16] (.movlw 0xA3#8) = true := by decide

theorem test_decode_mullw : reads [0b0000110110100011#16] (.mullw 0xA3#8) = true := by decide

theorem test_decode_sublw : reads [0b0000100010100011#16] (.sublw 0xA3#8) = true := by decide

theorem test_decode_xorlw : reads [0b0000101010100011#16] (.xorlw 0xA3#8) = true := by decide

theorem test_decode_tblrd : reads [0b0000000000001000#16] (.tblrd) = true := by decide

theorem test_decode_tblrdPostInc : reads [0b0000000000001001#16] (.tblrdPostInc) = true := by decide

theorem test_decode_tblrdPostDec : reads [0b0000000000001010#16] (.tblrdPostDec) = true := by decide

theorem test_decode_tblrdPreInc : reads [0b0000000000001011#16] (.tblrdPreInc) = true := by decide

theorem test_decode_tblwt : reads [0b0000000000001100#16] (.tblwt) = true := by decide

theorem test_decode_tblwtPostInc : reads [0b0000000000001101#16] (.tblwtPostInc) = true := by decide

theorem test_decode_tblwtPostDec : reads [0b0000000000001110#16] (.tblwtPostDec) = true := by decide

theorem test_decode_tblwtPreInc : reads [0b0000000000001111#16] (.tblwtPreInc) = true := by decide

/-! ## One step of each instruction -/

/-- V1 -/
theorem test_addwf : answers (exec (.addwf .f .access 0x20#8) (cell 0x01#8 0x7F#8 ⟨false, false, false, false, false⟩))
    (fun t => t.w == 0x01#8 && t.data.read 0x20 == 0x80#8 && t.status == ⟨true, true, false, true, false⟩ && t.pc == 0x102#21) = true := by
  decide

/-- A1 -/
theorem test_addwfc : answers (exec (.addwfc .w .access 0x20#8) (cell 0x4D#8 0x02#8 ⟨false, false, false, false, true⟩))
    (fun t => t.w == 0x50#8 && t.data.read 0x20 == 0x02#8 && t.status == ⟨false, false, false, true, false⟩ && t.pc == 0x102#21) = true := by
  decide

/-- A1, with C = 1, which stays -/
theorem test_andwf : answers (exec (.andwf .w .access 0x20#8) (cell 0x17#8 0xC2#8 ⟨false, false, false, false, true⟩))
    (fun t => t.w == 0x02#8 && t.data.read 0x20 == 0xC2#8 && t.status == ⟨false, false, false, false, true⟩ && t.pc == 0x102#21) = true := by
  decide

/-- V1, with N = 1, which stays -/
theorem test_clrf : answers (exec (.clrf .access 0x20#8) (cell 0x55#8 0xA7#8 ⟨true, false, false, false, true⟩))
    (fun t => t.w == 0x55#8 && t.data.read 0x20 == 0x00#8 && t.status == ⟨true, false, true, false, true⟩ && t.pc == 0x102#21) = true := by
  decide

/-- A1 -/
theorem test_comf : answers (exec (.comf .w .access 0x20#8) (cell 0x00#8 0x13#8 ⟨false, false, false, false, false⟩))
    (fun t => t.w == 0xEC#8 && t.data.read 0x20 == 0x13#8 && t.status == ⟨true, false, false, false, false⟩ && t.pc == 0x102#21) = true := by
  decide

/-- V1 -/
theorem test_decf : answers (exec (.decf .f .access 0x20#8) (cell 0x55#8 0x00#8 ⟨false, false, false, false, true⟩))
    (fun t => t.w == 0x55#8 && t.data.read 0x20 == 0xFF#8 && t.status == ⟨true, false, false, false, false⟩ && t.pc == 0x102#21) = true := by
  decide

/-- A1 -/
theorem test_incf : answers (exec (.incf .f .access 0x20#8) (cell 0x55#8 0xFF#8 ⟨false, false, false, false, false⟩))
    (fun t => t.w == 0x55#8 && t.data.read 0x20 == 0x00#8 && t.status == ⟨false, false, true, true, true⟩ && t.pc == 0x102#21) = true := by
  decide

/-- A1 -/
theorem test_iorwf : answers (exec (.iorwf .w .access 0x20#8) (cell 0x91#8 0x13#8 ⟨false, false, false, false, false⟩))
    (fun t => t.w == 0x93#8 && t.data.read 0x20 == 0x13#8 && t.status == ⟨true, false, false, false, false⟩ && t.pc == 0x102#21) = true := by
  decide

/-- A1, with flags before -/
theorem test_movf : answers (exec (.movf .w .access 0x20#8) (cell 0xFF#8 0x22#8 ⟨true, false, true, false, true⟩))
    (fun t => t.w == 0x22#8 && t.data.read 0x20 == 0x22#8 && t.status == ⟨false, false, false, false, true⟩ && t.pc == 0x102#21) = true := by
  decide

/-- V1 -/
theorem test_movwf : answers (exec (.movwf .access 0x20#8) (cell 0x80#8 0x11#8 ⟨false, false, false, false, true⟩))
    (fun t => t.w == 0x80#8 && t.data.read 0x20 == 0x80#8 && t.status == ⟨false, false, false, false, true⟩ && t.pc == 0x102#21) = true := by
  decide

/-- V1 -/
theorem test_negf : answers (exec (.negf .access 0x20#8) (cell 0x55#8 0x80#8 ⟨false, false, false, false, false⟩))
    (fun t => t.w == 0x55#8 && t.data.read 0x20 == 0x80#8 && t.status == ⟨true, true, false, true, false⟩ && t.pc == 0x102#21) = true := by
  decide

/-- V1 -/
theorem test_negf_zero : answers (exec (.negf .access 0x20#8) (cell 0x55#8 0x00#8 ⟨false, false, false, false, false⟩))
    (fun t => t.w == 0x55#8 && t.data.read 0x20 == 0x00#8 && t.status == ⟨false, false, true, true, true⟩ && t.pc == 0x102#21) = true := by
  decide

/-- A1 -/
theorem test_rlcf : answers (exec (.rlcf .w .access 0x20#8) (cell 0x00#8 0xE6#8 ⟨false, false, false, false, false⟩))
    (fun t => t.w == 0xCC#8 && t.data.read 0x20 == 0xE6#8 && t.status == ⟨true, false, false, false, true⟩ && t.pc == 0x102#21) = true := by
  decide

/-- V1 -/
theorem test_rlncf : answers (exec (.rlncf .f .access 0x20#8) (cell 0x55#8 0x80#8 ⟨false, false, false, false, true⟩))
    (fun t => t.w == 0x55#8 && t.data.read 0x20 == 0x01#8 && t.status == ⟨false, false, false, false, true⟩ && t.pc == 0x102#21) = true := by
  decide

/-- V1 -/
theorem test_rrcf : answers (exec (.rrcf .w .access 0x20#8) (cell 0x55#8 0x00#8 ⟨false, false, false, false, true⟩))
    (fun t => t.w == 0x80#8 && t.data.read 0x20 == 0x00#8 && t.status == ⟨true, false, false, false, false⟩ && t.pc == 0x102#21) = true := by
  decide

/-- V1 -/
theorem test_rrncf : answers (exec (.rrncf .f .access 0x20#8) (cell 0x55#8 0x01#8 ⟨false, false, false, false, false⟩))
    (fun t => t.w == 0x55#8 && t.data.read 0x20 == 0x80#8 && t.status == ⟨true, false, false, false, false⟩ && t.pc == 0x102#21) = true := by
  decide

/-- V1 -/
theorem test_setf : answers (exec (.setf .access 0x20#8) (cell 0x55#8 0x00#8 ⟨false, false, false, false, false⟩))
    (fun t => t.w == 0x55#8 && t.data.read 0x20 == 0xFF#8 && t.status == ⟨false, false, false, false, false⟩ && t.pc == 0x102#21) = true := by
  decide

/-- V1 -/
theorem test_subfwb : answers (exec (.subfwb .w .access 0x20#8) (cell 0x80#8 0x01#8 ⟨false, false, false, false, true⟩))
    (fun t => t.w == 0x7F#8 && t.data.read 0x20 == 0x01#8 && t.status == ⟨false, true, false, false, true⟩ && t.pc == 0x102#21) = true := by
  decide

/-- A1, example 3 -/
theorem test_subfwb_borrow : answers (exec (.subfwb .f .access 0x20#8) (cell 0x02#8 0x01#8 ⟨false, false, false, false, false⟩))
    (fun t => t.w == 0x02#8 && t.data.read 0x20 == 0x00#8 && t.status == ⟨false, false, true, true, true⟩ && t.pc == 0x102#21) = true := by
  decide

/-- V1 -/
theorem test_subwf : answers (exec (.subwf .w .access 0x20#8) (cell 0x80#8 0x7F#8 ⟨false, false, false, false, false⟩))
    (fun t => t.w == 0xFF#8 && t.data.read 0x20 == 0x7F#8 && t.status == ⟨true, true, false, true, false⟩ && t.pc == 0x102#21) = true := by
  decide

/-- A1, example 3 -/
theorem test_subwfb : answers (exec (.subwfb .f .access 0x20#8) (cell 0x0E#8 0x03#8 ⟨false, false, false, false, true⟩))
    (fun t => t.w == 0x0E#8 && t.data.read 0x20 == 0xF5#8 && t.status == ⟨true, false, false, false, false⟩ && t.pc == 0x102#21) = true := by
  decide

/-- V1 -/
theorem test_subwfb_borrow : answers (exec (.subwfb .f .access 0x20#8) (cell 0xFF#8 0x00#8 ⟨false, false, false, false, false⟩))
    (fun t => t.w == 0xFF#8 && t.data.read 0x20 == 0x00#8 && t.status == ⟨false, false, true, false, false⟩ && t.pc == 0x102#21) = true := by
  decide

/-- A1 -/
theorem test_swapf : answers (exec (.swapf .f .access 0x20#8) (cell 0x00#8 0x53#8 ⟨false, false, false, false, false⟩))
    (fun t => t.w == 0x00#8 && t.data.read 0x20 == 0x35#8 && t.status == ⟨false, false, false, false, false⟩ && t.pc == 0x102#21) = true := by
  decide

/-- A1 -/
theorem test_xorwf : answers (exec (.xorwf .f .access 0x20#8) (cell 0xB5#8 0xAF#8 ⟨false, false, false, false, false⟩))
    (fun t => t.w == 0xB5#8 && t.data.read 0x20 == 0x1A#8 && t.status == ⟨false, false, false, false, false⟩ && t.pc == 0x102#21) = true := by
  decide

/-- A1 -/
theorem test_bcf : answers (exec (.bcf 7#3 .access 0x20#8) (cell 0x00#8 0xC7#8 ⟨false, false, false, false, false⟩))
    (fun t => t.w == 0x00#8 && t.data.read 0x20 == 0x47#8 && t.status == ⟨false, false, false, false, false⟩ && t.pc == 0x102#21) = true := by
  decide

/-- A1 -/
theorem test_bsf : answers (exec (.bsf 7#3 .access 0x20#8) (cell 0x00#8 0x0A#8 ⟨false, false, false, false, false⟩))
    (fun t => t.w == 0x00#8 && t.data.read 0x20 == 0x8A#8 && t.status == ⟨false, false, false, false, false⟩ && t.pc == 0x102#21) = true := by
  decide

/-- 41_bit_oriented R195, the second application -/
theorem test_btg : answers (exec (.btg 7#3 .access 0x20#8) (cell 0x00#8 0x8A#8 ⟨false, false, false, false, false⟩))
    (fun t => t.w == 0x00#8 && t.data.read 0x20 == 0x0A#8 && t.status == ⟨false, false, false, false, false⟩ && t.pc == 0x102#21) = true := by
  decide

/-- A1, V4 -/
theorem test_movff : answers (exec (.movff 0x020#12 0x521#12) (cell 0 0x33#8 Status.clear))
    (fun t => t.data.read 0x521 == 0x33#8 && t.data.read 0x20 == 0x33#8 && t.pc == 0x104#21 && t.cycles == 2) = true := by decide

/-- V4 -/
theorem test_movff_forbidden : faults (exec (.movff 0x020#12 0xFF9#12) (cell 0 0x3C#8 Status.clear)) (.forbiddenMovffDest 0xFF9#12) = true := by decide

/-- A1 -/
theorem test_mulwf : answers (exec (.mulwf .access 0x20#8) (cell 0xC4#8 0xB5#8 Status.clear))
    (fun t => t.prodh == 0x8A#8 && t.prodl == 0x94#8 && t.w == 0xC4#8 && t.data.read 0x20 == 0xB5#8) = true := by decide

/-- V3 -/
theorem test_cpfseq : answers (exec (.cpfseq .access 0x20#8) (load (cell 0x42#8 0x42#8 Status.clear) 0x102#21 [0x0000#16]))
    (fun t => t.pc == 0x104#21 && t.cycles == 2) = true := by decide

/-- V3 -/
theorem test_cpfseq_unequal : answers (exec (.cpfseq .access 0x20#8) (load (cell 0x42#8 0x43#8 Status.clear) 0x102#21 [0x0000#16]))
    (fun t => t.pc == 0x102#21 && t.cycles == 1) = true := by decide

/-- V3 -/
theorem test_cpfsgt : answers (exec (.cpfsgt .access 0x20#8) (load (cell 0x7F#8 0x80#8 Status.clear) 0x102#21 [0x0000#16]))
    (fun t => t.pc == 0x104#21 && t.cycles == 2) = true := by decide

/-- V3 -/
theorem test_cpfsgt_less : answers (exec (.cpfsgt .access 0x20#8) (load (cell 0x80#8 0x7F#8 Status.clear) 0x102#21 [0x0000#16]))
    (fun t => t.pc == 0x102#21 && t.cycles == 1) = true := by decide

/-- V3 -/
theorem test_cpfslt : answers (exec (.cpfslt .access 0x20#8) (load (cell 0x80#8 0x7F#8 Status.clear) 0x102#21 [0x0000#16]))
    (fun t => t.pc == 0x104#21 && t.cycles == 2) = true := by decide

/-- V3 -/
theorem test_cpfslt_equal : answers (exec (.cpfslt .access 0x20#8) (load (cell 0x80#8 0x80#8 Status.clear) 0x102#21 [0x0000#16]))
    (fun t => t.pc == 0x102#21 && t.cycles == 1) = true := by decide

/-- V3 -/
theorem test_tstfsz : answers (exec (.tstfsz .access 0x20#8) (load (cell 0x55#8 0x00#8 Status.clear) 0x102#21 [0xEF00#16, 0xF001#16]))
    (fun t => t.pc == 0x106#21 && t.cycles == 3) = true := by decide

/-- V3 -/
theorem test_btfsc : answers (exec (.btfsc 7#3 .access 0x20#8) (load (cell 0x00#8 0x7F#8 Status.clear) 0x102#21 [0x0000#16]))
    (fun t => t.pc == 0x104#21 && t.cycles == 2) = true := by decide

/-- V3 -/
theorem test_btfss : answers (exec (.btfss 3#3 .access 0x20#8) (load (cell 0x00#8 0x08#8 Status.clear) 0x102#21 [0xEF00#16, 0xF001#16]))
    (fun t => t.pc == 0x106#21 && t.cycles == 3) = true := by decide

/-- V3 -/
theorem test_decfsz : answers (exec (.decfsz .f .access 0x20#8) (load (cell 0x00#8 0x01#8 Status.clear) 0x102#21 [0xEF00#16, 0xF001#16]))
    (fun t => t.pc == 0x106#21 && t.cycles == 3 && t.data.read 0x20 == 0x00#8) = true := by decide

/-- V3 -/
theorem test_decfsnz : answers (exec (.decfsnz .f .access 0x20#8) (load (cell 0x00#8 0x00#8 Status.clear) 0x102#21 [0x0000#16]))
    (fun t => t.pc == 0x104#21 && t.cycles == 2 && t.data.read 0x20 == 0xFF#8) = true := by decide

/-- V3 -/
theorem test_incfsz : answers (exec (.incfsz .f .access 0x20#8) (load (cell 0x00#8 0xFE#8 Status.clear) 0x102#21 [0x0000#16]))
    (fun t => t.pc == 0x102#21 && t.cycles == 1 && t.data.read 0x20 == 0xFF#8) = true := by decide

/-- V3 -/
theorem test_infsnz : answers (exec (.infsnz .f .access 0x20#8) (load (cell 0x00#8 0xFF#8 Status.clear) 0x102#21 [0x0000#16]))
    (fun t => t.pc == 0x102#21 && t.cycles == 1 && t.data.read 0x20 == 0x00#8) = true := by decide

/-- R331, R337: DECFSZ writes PCL (2 - 1 = 1, not 0), DECFSNZ skips over one word: two cycles either way -/
theorem test_decfsnz_pcl_two_cycles :
    answers (exec (.decfsz .f .access 0xF9#8) (load (cell 0 0 Status.clear) 0x102#21 [0x0000#16])) (fun t => t.cycles == 2) = true ∧
    answers (exec (.decfsnz .f .access 0xF9#8) (load (cell 0 0 Status.clear) 0x102#21 [0x0000#16])) (fun t => t.cycles == 2) = true := by
  refine ⟨by decide, ?_⟩
  show (0 + (2 + Config.freeCycles _ % 1) == 2) = true
  simp [Nat.mod_one]

/-- V3, the faults of a skip -/
theorem test_skip_over_reserved : faults (exec (.decfsz .f .access 0x20#8) (load (cell 0 1 Status.clear) 0x102#21 [0x0001#16]))
    (.reservedInstruction 0x102#21 0x0001#16) = true := by decide

/-- V6 -/
theorem test_bc : answers (exec (.bc 0x7F#8) { cell 0 0 ⟨false, false, false, false, true⟩ with pc := 0x000100#21 })
    (fun t => t.pc == 0x000200#21 && t.cycles == 2) = true := by decide

/-- V6 -/
theorem test_bn : answers (exec (.bn 0x10#8) { cell 0 0 ⟨true, false, false, false, false⟩ with pc := 0x000100#21 })
    (fun t => t.pc == 0x000122#21 && t.cycles == 2) = true := by decide

/-- V6 -/
theorem test_bnc : answers (exec (.bnc 0x80#8) { cell 0 0 ⟨false, false, false, false, false⟩ with pc := 0x000000#21 })
    (fun t => t.pc == 0x1FFF02#21 && t.cycles == 2) = true := by decide

/-- V6 -/
theorem test_bnn : answers (exec (.bnn 0xF0#8) { cell 0 0 ⟨false, false, false, false, false⟩ with pc := 0x000100#21 })
    (fun t => t.pc == 0x0000E2#21 && t.cycles == 2) = true := by decide

/-- V6 -/
theorem test_bnov : answers (exec (.bnov 0x00#8) { cell 0 0 ⟨false, true, false, false, false⟩ with pc := 0x000100#21 })
    (fun t => t.pc == 0x000102#21 && t.cycles == 1) = true := by decide

/-- V6 -/
theorem test_bnz : answers (exec (.bnz 0xFE#8) { cell 0 0 ⟨false, false, false, false, false⟩ with pc := 0x000100#21 })
    (fun t => t.pc == 0x0000FE#21 && t.cycles == 2) = true := by decide

/-- V6 -/
theorem test_bov : answers (exec (.bov 0xFF#8) { cell 0 0 ⟨false, true, false, false, false⟩ with pc := 0x000100#21 })
    (fun t => t.pc == 0x000100#21 && t.cycles == 2) = true := by decide

/-- V6 -/
theorem test_bz : answers (exec (.bz 0x7F#8) { cell 0 0 ⟨false, false, true, false, false⟩ with pc := 0x1FFFFE#21 })
    (fun t => t.pc == 0x0000FE#21 && t.cycles == 2) = true := by decide

/-- V6 -/
theorem test_bra : answers (exec (.bra 0x400#11) { cell 0 0 ⟨false, false, false, false, false⟩ with pc := 0x001000#21 })
    (fun t => t.pc == 0x000802#21 && t.cycles == 2) = true := by decide

/-- V6 -/
theorem test_goto : answers (exec (.goto 0x0091A#20) (cell 0 0 Status.clear)) (fun t => t.pc == 0x001234#21 && t.cycles == 2) = true := by decide

/-- V6 -/
theorem test_call_fast : answers (exec (.call true 0x0091A#20) { cell 0x5A#8 0 ⟨false, false, true, false, true⟩ with bsr := 3#4 })
    (fun t => t.pc == 0x001234#21 && t.stack == [0x000104#21] && t.ws == 0x5A#8 && t.statuss.toByte defaultStatusLayout == 0x05#8 && t.bsrs == 3#4) = true := by decide

/-- V6 -/
theorem test_rcall : answers (exec (.rcall 0x7FF#11) { cell 0 0 Status.clear with stack := [0x000010#21] })
    (fun t => t.pc == 0x100#21 && t.stack == [0x000010#21, 0x000102#21]) = true := by decide

/-- V6 -/
theorem test_push_wraps : answers (exec .push { cell 0 0 Status.clear with pc := 0x1FFFFE#21 })
    (fun t => t.pc == 0#21 && t.stack == [0#21]) = true := by decide

/-- V6 -/
theorem test_push_full : faults (exec .push { cell 0 0 Status.clear with stack := List.replicate 31 2#21 }) (.stackOverflow 0x000102#21) = true := by decide

/-- 42_control R216 -/
theorem test_pop : answers (exec .pop { cell 0 0 Status.clear with stack := [0x014332#21, 0x0031A2#21] })
    (fun t => t.stack == [0x014332#21] && t.pc == 0x102#21) = true := by decide

/-- V6 -/
theorem test_pop_empty : faults (exec .pop (cell 0 0 Status.clear)) .stackUnderflow = true := by decide

/-- V6 -/
theorem test_retlw : answers (exec (.retlw 0x7E#8) { cell 0x11#8 0 Status.clear with stack := [0x000204#21] })
    (fun t => t.pc == 0x204#21 && t.w == 0x7E#8 && t.stack == [] && t.cycles == 2) = true := by decide

/-- V6 -/
theorem test_return_fast : answers (exec (.ret true) { cell 0x11#8 0 Status.clear with
      stack := [0x000010#21, 0x000204#21], ws := 0xAA#8, statuss := Status.ofByte defaultStatusLayout 0x1F#8, bsrs := 7#4 })
    (fun t => t.pc == 0x204#21 && t.w == 0xAA#8 && t.bsr == 7#4 && t.status.toByte defaultStatusLayout == 0x1F#8 && t.stack == [0x000010#21]) = true := by decide

/-- V6 -/
theorem test_retfie_low : answers (exec (.retfie false) { cell 0 0 Status.clear with stack := [0x000204#21], gieh := true, intLevel := .low })
    (fun t => t.pc == 0x204#21 && t.gieh && t.giel && t.intLevel == .none) = true := by decide

/-- V6 -/
theorem test_retfie_none : answers (exec (.retfie true) { cell 0x11#8 0 Status.clear with stack := [0x000204#21], ws := 0xAA#8 })
    (fun t => t.gieh && !t.giel && t.w == 0xAA#8) = true := by decide

/-- V6 -/
theorem test_clrwdt : answers (exec .clrwdt { cell 0 0 Status.clear with wdt := 77, wdtps := 5, toBit := false, pdBit := false })
    (fun t => t.wdt == 0 && t.wdtps == 0 && t.wdtClearedAt == 0 && t.toBit && t.pdBit && t.pc == 0x102#21) = true := by decide

/-- V6 -/
theorem test_sleep : answers (exec .sleep { cell 0 0 Status.clear with wdt := 77, toBit := false })
    (fun t => t.wdt == 0 && t.toBit && !t.pdBit && t.asleep && t.pc == 0x102#21) = true := by decide

/-- A1, example 2 -/
theorem test_daw : answers (exec .daw (cell 0xCE#8 0 Status.clear)) (fun t => t.w == 0x34#8 && t.status == ⟨false, false, false, false, true⟩) = true := by decide

/-- V6, 0x99 + 0x99 -/
theorem test_daw_keeps_carry : answers (exec .daw (cell 0x32#8 0 ⟨false, false, false, true, true⟩)) (fun t => t.w == 0x98#8 && t.status.c && t.status.dc) = true := by decide

/-- V6 -/
theorem test_nop : answers (exec .nop (cell 0x12#8 0 Status.clear)) (fun t => t == { cell 0x12#8 0 Status.clear with pc := 0x102#21, cycles := 1 }) = true := by decide

/-- V6 -/
theorem test_nopF : answers (exec (.nopF 0x123#12) (cell 0 0 Status.clear)) (fun t => t.pc == 0x102#21) = true := by decide

/-- V6, 70_reset R322 -/
theorem test_reset : answers (exec .reset { cell 0x12#8 0x34#8 Status.clear with bsr := 3#4, stack := [2#21], gieh := true, fsr1 := 0x5AB#12 })
    (fun t => t.pc == 0#21 && t.stack == [] && t.bsr == 0#4 && !t.gieh && t.fsr1 == 0x0AB#12 && t.w == 0x12#8 && t.data.read 0x20 == 0x34#8) = true := by decide

/-- 70_reset R321: another `RESET_STATE` for the kind, W = 0x77 and OV alone set -/
theorem test_reset_of_other_part : answers (exec .reset { cell 0x12#8 0x34#8 Status.clear with params :=
      { Params.full with resetState := { defaultResetState with
        mclr := { defaultResetMclr with w := .value 0x77#8, status := .value ⟨false, true, false, false, false⟩ } } } })
    (fun t => t.w == 0x77#8 && t.status == ⟨false, true, false, false, false⟩ && t.data.read 0x20 == 0x34#8) = true := by decide

/-- V7 -/
theorem test_addlw : answers (exec (.addlw 0x80#8) (cell 0x80#8 0 ⟨false, false, false, false, false⟩)) (fun t => t.w == 0x00#8 && t.status == ⟨false, true, true, false, true⟩ && t.cycles == 1) = true := by decide

/-- V7 -/
theorem test_andlw : answers (exec (.andlw 0x0F#8) (cell 0xF0#8 0 ⟨false, true, false, true, true⟩)) (fun t => t.w == 0x00#8 && t.status == ⟨false, true, true, true, true⟩ && t.cycles == 1) = true := by decide

/-- A1 -/
theorem test_iorlw : answers (exec (.iorlw 0x35#8) (cell 0x9A#8 0 ⟨false, false, false, false, false⟩)) (fun t => t.w == 0xBF#8 && t.status == ⟨true, false, false, false, false⟩ && t.cycles == 1) = true := by decide

/-- V7 -/
theorem test_movlw : answers (exec (.movlw 0x00#8) (cell 0x55#8 0 ⟨true, false, false, false, false⟩)) (fun t => t.w == 0x00#8 && t.status == ⟨true, false, false, false, false⟩ && t.cycles == 1) = true := by decide

/-- V7 -/
theorem test_sublw : answers (exec (.sublw 0x10#8) (cell 0x01#8 0 ⟨false, false, false, false, false⟩)) (fun t => t.w == 0x0F#8 && t.status == ⟨false, false, false, false, true⟩ && t.cycles == 1) = true := by decide

/-- A1 -/
theorem test_xorlw : answers (exec (.xorlw 0xAF#8) (cell 0xB5#8 0 ⟨false, false, false, true, false⟩)) (fun t => t.w == 0x1A#8 && t.status == ⟨false, false, false, true, false⟩ && t.cycles == 1) = true := by decide

/-- V7 -/
theorem test_movlb : answers (exec (.movlb 0x15#8) (cell 0 0 Status.clear)) (fun t => t.bsr == 5#4) = true := by decide

/-- A1 -/
theorem test_mullw : answers (exec (.mullw 0xC4#8) (cell 0xE2#8 0 Status.clear)) (fun t => t.prodh == 0xAD#8 && t.prodl == 0x08#8 && t.w == 0xE2#8) = true := by decide

/-- V7 -/
theorem test_lfsr : answers (exec (.lfsr 1#2 0xFFF#12) (cell 0 0 Status.clear)) (fun t => t.fsr1 == 0xFFF#12 && t.fsr0 == 0#12 && t.pc == 0x104#21 && t.cycles == 2) = true := by decide

/-- V8 -/
theorem test_tblrd : answers (exec .tblrd { load (cell 0 0 Status.clear) 0x200#21 [0x2211#16, 0x4433#16] with tblptr := 0x000201#21 })
    (fun t => t.tablat == 0x22#8 && t.tblptr == 0x000201#21 && t.pc == 0x102#21 && t.cycles == 2) = true := by decide

/-- V8 -/
theorem test_tblrdPostInc : answers (exec .tblrdPostInc { load (cell 0 0 Status.clear) 0x200#21 [0x2211#16, 0x4433#16] with tblptr := 0x000203#21 })
    (fun t => t.tablat == 0x44#8 && t.tblptr == 0x000204#21 && t.pc == 0x102#21 && t.cycles == 2) = true := by decide

/-- V8 -/
theorem test_tblrdPostDec : answers (exec .tblrdPostDec { load (cell 0 0 Status.clear) 0x200#21 [0x2211#16, 0x4433#16] with tblptr := 0x000202#21 })
    (fun t => t.tablat == 0x33#8 && t.tblptr == 0x000201#21 && t.pc == 0x102#21 && t.cycles == 2) = true := by decide

/-- V8 -/
theorem test_tblrdPreInc : answers (exec .tblrdPreInc { load (cell 0 0 Status.clear) 0x200#21 [0x2211#16, 0x4433#16] with tblptr := 0x0001FF#21 })
    (fun t => t.tablat == 0x11#8 && t.tblptr == 0x000200#21 && t.pc == 0x102#21 && t.cycles == 2) = true := by decide

/-- V8 -/
theorem test_tblwt : answers (exec .tblwt { cell 0 0 Status.clear with tblptr := 0x00A357#21, tablat := 0x5C#8 })
    (fun t => t.hold == { State.reset.hold with h7 := 0x5C#8 } && t.tblptr == 0x00A357#21 && t.tablat == 0x5C#8) = true := by decide

/-- V8 -/
theorem test_tblwtPostInc : answers (exec .tblwtPostInc { cell 0 0 Status.clear with tblptr := 0x00A356#21, tablat := 0x5C#8 })
    (fun t => t.hold == { State.reset.hold with h6 := 0x5C#8 } && t.tblptr == 0x00A357#21 && t.tablat == 0x5C#8) = true := by decide

/-- V8 -/
theorem test_tblwtPostDec : answers (exec .tblwtPostDec { cell 0 0 Status.clear with tblptr := 0x000000#21, tablat := 0x5C#8 })
    (fun t => t.hold == { State.reset.hold with h0 := 0x5C#8 } && t.tblptr == 0x1FFFFF#21 && t.tablat == 0x5C#8) = true := by decide

/-- V8 -/
theorem test_tblwtPreInc : answers (exec .tblwtPreInc { cell 0 0 Status.clear with tblptr := 0x01389A#21, tablat := 0x5C#8 })
    (fun t => t.hold == { State.reset.hold with h3 := 0x5C#8 } && t.tblptr == 0x01389B#21 && t.tablat == 0x5C#8) = true := by decide

/-! ## Addresses, registers, indirect addressing -/

/-- V2 -/
theorem test_bank_14 : answers (exec (.incf .f .banked 0xFF#8) { State.reset with bsr := 14#4, data := [(0xEFF, 0x41#8)] })
    (fun t => t.data == [(0xEFF, 0x42#8)]) = true := by decide

/-- V2 -/
theorem test_status_read : answers (exec (.movf .w .access 0xD8#8) (cell 0 0 ⟨true, false, false, false, true⟩)) (fun t => t.w == 0x11#8 && t.status == ⟨false, false, false, false, true⟩) = true := by decide

/-- D3: STATUS laid out the other way round, C in bit 7 and N in bit 3 -/
theorem test_status_other_layout : answers (exec (.movf .w .access 0xD8#8)
      { cell 0 0 ⟨true, false, false, false, true⟩ with params := { Params.full with statusLayout := ⟨3, 4, 5, 6, 7⟩ } })
    (fun t => t.w == 0x88#8 && t.status == ⟨true, false, false, false, true⟩) = true := by decide

/-- V2 -/
theorem test_tblptru_five_bits : answers (exec (.movwf .access 0xF8#8) { cell 0xFF#8 0 Status.clear with tblptr := 0x001234#21 }) (fun t => t.tblptr == 0x1F1234#21) = true := by decide

/-- V2 -/
theorem test_portb_faults : faults (exec (.movf .w .access 0x81#8) (cell 0 0 Status.clear)) (.unmodelledSFR 0xF81#12) = true := by decide

/-- V2, the base model -/
theorem test_base_model_indf_faults : faults (exec (.incf .f .access 0xEF#8) { cell 0 0 Status.clear with params := Params.base }) (.unmodelledSFR 0xFEF#12) = true := by decide

/-- 93 G3: read, written back and stepped once -/
theorem test_postinc_once : answers (exec (.incf .f .access 0xEE#8) { cell 0 0x41#8 Status.clear with fsr0 := 0x020#12 })
    (fun t => t.data.read 0x20 == 0x42#8 && t.fsr0 == 0x021#12) = true := by decide

/-- 93 G3 -/
theorem test_movff_postinc_preinc : answers (exec (.movff 0xFEE#12 0xFE4#12) { cell 0 0x41#8 Status.clear with fsr0 := 0x020#12, fsr1 := 0x030#12 })
    (fun t => t.data.read 0x31 == 0x41#8 && t.fsr0 == 0x021#12 && t.fsr1 == 0x031#12) = true := by decide

/-- 93 G3: W is signed -/
theorem test_plusw : answers (exec (.movf .w .access 0xEB#8) { cell 0xFF#8 0x41#8 Status.clear with fsr0 := 0x021#12 }) (fun t => t.w == 0x41#8 && t.fsr0 == 0x021#12) = true := by decide

/-- 93 G3: reads 0 -/
theorem test_indirect_to_indirect : answers (exec (.movf .w .access 0xEE#8) { cell 0xFF#8 0 Status.clear with fsr0 := 0xFEF#12 }) (fun t => t.w == 0#8 && t.fsr0 == 0xFF0#12) = true := by decide

/-- 93 G4: ADDWF PCL goes to its address + 2 + W -/
theorem test_computed_jump : answers (exec (.addwf .f .access 0xF9#8) { cell 0x04#8 0 Status.clear with pc := 0x1200#21 }) (fun t => t.pc == 0x1206#21 && t.cycles == 2) = true := by decide

/-- 93 G4 -/
theorem test_tos_write : answers (exec (.movwf .access 0xFE#8) { cell 0xAB#8 0 Status.clear with stack := [2#21, 0x1F1234#21] }) (fun t => t.stack == [2#21, 0x1FAB34#21]) = true := by decide

/-! ## Steps -/

/-- R246, placed where the first step after reset fetches -/
theorem test_step_movlw : answers (step (State.reset.withFetchWord 16 0x0E5A)) (fun t => t.w == 0x5A#8 && t.pc == 2#21) = true := by decide

/-- V9 -/
theorem test_step_reserved : faults (step (State.reset.withFetchWord 16 0xE800)) (.reservedInstruction 0#21 0xE800#16) = true := by decide

/-- V9 -/
theorem test_step_malformed : faults (step (State.reset.withFetchWord 32 0xF123EE01)) (.malformedSecondWord 0#21 0xEE01#16 0xF123#16) = true := by decide

/-- 95_test_vectors P9, step 2 -/
theorem test_step_interrupt : answers (step { cell 0x0A#8 0 Status.clear with pc := 0x04A#21, gieh := true, inputs := [{ idle with irqHigh := true }] })
    (fun t => t.pc == 8#21 && t.stack == [0x04A#21] && !t.gieh && t.ws == 0x0A#8 && t.intLevel == .high) = true := by decide

/-- R296: a time-out one cycle before `WDT_PERIOD` is not heard, then it resets the core -/
theorem test_step_wdt_period :
    let s := { load (cell 0x0A#8 0 Status.clear) 0x100#21 [0x0E5A#16] with
      cycles := 106, wdtClearedAt := 7, inputs := [{ idle with wdtTimeout := true }]
      params := { Params.full with wdtEnabled := true, wdtPeriod := 100 } }
    answers (step s) (fun t => t.w == 0x5A#8 && t.toBit) = true ∧
    answers (step { s with cycles := 107 }) (fun t => t.pc == 0#21 && !t.toBit && t.wdtClearedAt == 107) = true := by decide

/-! ## Witnesses: for every statement with hypotheses, states and operands that meet them, each clause at its boundary.
A statement without a witness here has no hypothesis. -/

/-- A full return stack has 31 addresses. -/
def sp (n : Nat) : State := { cell 0 0 Status.clear with stack := List.replicate n 0x001235#21 }

/-- Every flag 1. -/
def allSet : Status := ⟨true, true, true, true, true⟩

/-- Words after the instruction at pc = 0x0100. -/
def before (ws : List Word) (s : State) : State := load s 0x102#21 ws

/-- Parameters with `RAM_BYTES` = 0x100 and `PROG_BYTES` = 0x200. -/
def small (u : Unimplemented) : Params :=
  { Params.full with ramBytes := 0x100, progBytes := 0x200, unimplData := u, unimplProg := u }

/-! ### Encoding -/

theorem witness_DecodeEncode_DecodeBytes :
    (Instr.lfsr 2#2 0xFFF#12).wellFormed = true ∧ (Instr.movff 0xFFF#12 0x000#12).wellFormed = true ∧
    (Instr.nop).wellFormed = true := by decide

theorem witness_EncodeDecode_two : decode [0xEE2B#16, 0xF0BC#16, 0x0001#16] = .ok (.lfsr 2#2 0xBBC#12, [0x0001#16]) := rfl

theorem witness_EncodeDecode_one : decode [0xFFFF#16] = .ok (.nopF 0xFFF#12, []) := rfl

/-! ### The step -/

theorem witness_StepRunsDecoded_one :
    let s := load State.reset 0#21 [0x0E5A#16]
    let bs : List Byte := [0x5A#8, 0x0E#8]
    s.inputs = [] ∧ s.asleep = false ∧ bs.length = 2 ∧
    (∀ j (h : j < bs.length), s.prog.read (s.pc + BitVec.ofNat 21 j).toNat = bs[j] ∧
      (s.pc + BitVec.ofNat 21 (j - j % 2)).toNat < s.params.progBytes) ∧
    decodeBytes bs = .ok (.movlw 0x5A#8) := ⟨rfl, rfl, rfl, by decide, rfl⟩

/-- The second word lies at address 0, after the last word of program memory. -/
theorem witness_StepRunsDecoded_two :
    let s := load { State.reset with pc := 0x1FFFFE#21 } 0x1FFFFE#21 [0xC123#16, 0xF456#16]
    let bs : List Byte := [0x23#8, 0xC1#8, 0x56#8, 0xF4#8]
    s.inputs = [] ∧ s.asleep = false ∧ bs.length = 4 ∧
    (∀ j (h : j < bs.length), s.prog.read (s.pc + BitVec.ofNat 21 j).toNat = bs[j] ∧
      (s.pc + BitVec.ofNat 21 (j - j % 2)).toNat < s.params.progBytes) ∧
    decodeBytes bs = .ok (.movff 0x123#12 0x456#12) := ⟨rfl, rfl, rfl, by decide, rfl⟩

theorem witness_StepWithoutEvent :
    let x : BoundaryInput := { idle with irqHigh := true, wdtCount := some (5, 1) }
    let s := { State.reset with inputs := [x], params := { Params.full with wdtEnabled := true } }
    s.inputs = x :: [] ∧ s.asleep = false ∧ boundaryEvent (countWdt { s with inputs := [] } x) x = none ∧
    fetchInstr s s.pc = .ok (.nop, 1) := ⟨rfl, rfl, rfl, rfl⟩

theorem witness_StepStopsOnNoInstruction_reserved :
    let s := load State.reset 0#21 [0x0014#16]
    s.inputs = [] ∧ s.asleep = false ∧ s.pc.toNat < s.params.progBytes ∧
    0x0014#16 = s.prog.read (s.pc + 1#21).toNat ++ s.prog.read s.pc.toNat ∧ firstWord 0x0014#16 = .reserved :=
  ⟨rfl, rfl, by decide, by decide, rfl⟩

theorem witness_StepStopsOnNoInstruction_malformed :
    let s := load State.reset 0#21 [0xEE21#16, 0xF100#16]
    s.inputs = [] ∧ s.asleep = false ∧ s.pc.toNat < s.params.progBytes ∧
    0xEE21#16 = s.prog.read (s.pc + 1#21).toNat ++ s.prog.read s.pc.toNat ∧
    firstWord 0xEE21#16 = .two (.lfsr 2#2 1#4) ∧ (s.pc + 2#21).toNat < s.params.progBytes ∧
    0xF100#16 = s.prog.read (s.pc + 3#21).toNat ++ s.prog.read (s.pc + 2#21).toNat ∧
    secondWord (.lfsr 2#2 1#4) 0xF100#16 = none :=
  ⟨rfl, rfl, by decide, by decide, rfl, by decide, by decide, rfl⟩

/-- The second word would be the first word above 0x200. -/
theorem witness_StepStopsOnNoInstruction_absent :
    let s (u : Unimplemented) := load { State.reset with pc := 0x1FE#21, params := small u } 0x1FE#21 [0xEE21#16]
    (s .fault).inputs = [] ∧ (s .fault).asleep = false ∧ (s .fault).pc.toNat < (s .fault).params.progBytes ∧
    0xEE21#16 = (s .fault).prog.read ((s .fault).pc + 1#21).toNat ++ (s .fault).prog.read (s .fault).pc.toNat ∧
    firstWord 0xEE21#16 = .two (.lfsr 2#2 1#4) ∧ (s .fault).params.progBytes ≤ ((s .fault).pc + 2#21).toNat ∧
    (s .fault).params.unimplProg = .fault ∧ (s .readZero).params.unimplProg = .readZero :=
  ⟨rfl, rfl, by decide, by decide, rfl, by decide, rfl, rfl⟩

theorem witness_StepAboveProgramMemory :
    let s := { State.reset with pc := 0x200#21, params := small .fault }
    let r := { State.reset with pc := 0x200#21, params := small .readZero }
    s.inputs = [] ∧ s.asleep = false ∧ s.params.progBytes ≤ s.pc.toNat ∧ s.params.unimplProg = .fault ∧
    r.inputs = [] ∧ r.asleep = false ∧ r.params.progBytes ≤ r.pc.toNat ∧ r.params.unimplProg = .readZero := by decide

theorem witness_StepKeepsInv : Inv (cell 1 2 allSet) ∧ ∃ t, step (cell 1 2 allSet) = .next t :=
  ⟨⟨by decide, by decide, by decide, by decide, by decide, by decide⟩, _, rfl⟩

theorem witness_StepKeepsProgram : ∃ t, step (load State.reset 0#21 [0x000C#16]) = .next t := ⟨_, rfl⟩

theorem witness_HiddenRegisterWriters_call : ∃ t, exec (.call true 0#20) (cell 1 0 allSet) = .next t ∧
    t.ws ≠ (cell 1 0 allSet).ws ∧ t.statuss ≠ (cell 1 0 allSet).statuss := ⟨_, rfl, by decide, by decide⟩

theorem witness_HiddenRegisterWriters_tblwt : ∃ t, exec .tblwt (cell 1 0 allSet) = .next t ∧
    t.hold ≠ (cell 1 0 allSet).hold := ⟨_, rfl, by decide⟩

/-- A part whose `RESET_STATE` is not the default table: RESET changes WS and TO. -/
theorem witness_HiddenRegisterWriters_reset :
    let s := { sp 0 with params := { Params.full with resetState := { defaultResetState with
      mclr := { defaultResetMclr with ws := .value 1#8, toBit := .value false } } } }
    ∃ t, exec .reset s = .next t ∧ t.ws ≠ s.ws ∧ t.toBit ≠ s.toBit ∧ s.params.resetState ≠ defaultResetState :=
  ⟨_, rfl, by decide, by decide, by decide⟩

theorem witness_HiddenRegisterWriters_retfie :
    ∃ t, exec (.retfie false) { sp 1 with intLevel := .low } = .next t ∧ t.intLevel ≠ .low := ⟨_, rfl, by decide⟩

theorem witness_HiddenRegisterWriters_sleep : ∃ t, exec .sleep { sp 1 with wdt := 3 } = .next t ∧
    t.pdBit ≠ (sp 1).pdBit ∧ t.wdt ≠ 3 ∧ t.asleep ≠ (sp 1).asleep := ⟨_, rfl, by decide, by decide, by decide⟩

theorem witness_StackDepthWriters : ∃ t, exec .push (sp 30) = .next t ∧ t.stack.length ≠ (sp 30).stack.length :=
  ⟨_, rfl, by decide⟩

theorem witness_DataReachedByOperandOnly : ∃ t, exec (.goto 1#20) (sp 0) = .next t ∧
    hasFileOperand (.goto 1#20) = false ∧ Instr.goto 1#20 ≠ .reset ∧ ∀ fast, Instr.goto 1#20 ≠ .retfie fast :=
  ⟨_, rfl, rfl, by decide, by decide⟩

/-- RESET on a part with the default table. -/
theorem witness_DataReachedByOperandOnly_reset : (∃ t, exec .reset (sp 0) = .next t) ∧
    hasFileOperand .reset = false ∧ (sp 0).params.resetState = defaultResetState := ⟨⟨_, rfl⟩, rfl, rfl⟩

/-! ### Memory, addresses -/

theorem witness_MemoryReadWrite : Memory.wf [(5, 1#8), (7, 2#8)] := by decide

theorem witness_DataAddressSpace_ram :
    (0x000#12).toNat < min Params.full.ramBytes 0xF80 ∧ (0xF7F#12).toNat < min Params.full.ramBytes 0xF80 := by decide

theorem witness_DataAddressSpace_absent :
    ((0x100#12).toNat < 0xF80 ∧ (small .fault).ramBytes ≤ (0x100#12).toNat ∧ (small .fault).unimplData = .fault) ∧
    ((0xF7F#12).toNat < 0xF80 ∧ (small .readZero).ramBytes ≤ (0xF7F#12).toNat ∧
      (small .readZero).unimplData = .readZero) := by decide

theorem witness_DataAddressSpace_sfr :
    (0xF80 ≤ (0xF80#12).toNat ∧ Params.full.sfrAt 0xF80#12 = none) ∧
    (0xF80 ≤ (0xFFF#12).toNat ∧ Params.full.sfrAt 0xFFF#12 = some .tosu ∧ Params.full.models .tosu = true) ∧
    (Params.base.sfrAt 0xFFF#12 = some .tosu ∧ Params.base.models .tosu = false) := by decide

theorem witness_RegisterReadBack_WideRegisterParts : (sp 1).stack ≠ [] ∧
    defaultStatusLayout = (sp 1).params.statusLayout ∧ defaultIntconLayout = (sp 1).params.intconLayout := by decide

/-- FSR0 holds the address before or at the one that is used; the pre-increment wraps to 0, the signed offset of PLUSW0 goes
below the pointer. -/
theorem witness_IndirectAddressing :
    let s (p : DataAddr) := { cell 0x80#8 0 Status.clear with fsr0 := p }
    (0xF80 ≤ (0xFEF#12).toNat ∧ Params.full.sfrAt 0xFEF#12 = some (.ind .indf .fsr0) ∧ Params.full.indirect = true ∧
      InRam (s 0xF7F#12) 0xF7F#12 ∧ PointsTo (s 0xF7F#12) .indf .fsr0 0xF7F#12) ∧
    (Params.full.sfrAt 0xFEE#12 = some (.ind .postinc .fsr0) ∧ PointsTo (s 0xF7F#12) .postinc .fsr0 0xF7F#12) ∧
    (Params.full.sfrAt 0xFED#12 = some (.ind .postdec .fsr0) ∧ InRam (s 0#12) 0#12 ∧
      PointsTo (s 0#12) .postdec .fsr0 0#12) ∧
    (Params.full.sfrAt 0xFEC#12 = some (.ind .preinc .fsr0) ∧ InRam (s 0xFFF#12) 0#12 ∧
      PointsTo (s 0xFFF#12) .preinc .fsr0 0#12) ∧
    (Params.full.sfrAt 0xFEB#12 = some (.ind .plusw .fsr0) ∧ InRam (s 0x080#12) 0#12 ∧
      PointsTo (s 0x080#12) .plusw .fsr0 0#12) := by
  unfold PointsTo; decide

/-- POSTINC0 points to the first and the last register of the map, to an indirect register, to absent memory, and to an
address that has no register. -/
theorem witness_IndirectAddressing_elsewhere :
    let s (p : DataAddr) := { cell 0 0 Status.clear with fsr0 := p, params := small .readZero }
    (∀ p, PointsTo (s p) .postinc .fsr0 p) ∧ (small .readZero).sfrAt 0xFEE#12 = some (.ind .postinc .fsr0) ∧
    (0xF80 ≤ (0xFD8#12).toNat ∧ (small .readZero).sfrAt 0xFD8#12 = some .status ∧
      (small .readZero).sfrAt 0xFFF#12 = some .tosu ∧ (small .readZero).models .tosu = true) ∧
    (small .readZero).sfrAt 0xFEF#12 = some (.ind .indf .fsr0) ∧
    ((small .readZero).ramBytes ≤ (0x100#12).toNat ∧ (0xF7F#12).toNat < 0xF80 ∧
      (small .readZero).unimplData = .readZero) ∧
    cellAt (small .readZero) 0xF80#12 = .error (.unmodelledSFR 0xF80#12) :=
  ⟨fun _ => rfl, by decide, by decide, by decide, by decide, rfl⟩

/-! ### File operands -/

/-- FileAdd, FileSubtract, FileLogic, FileRotate, FileBits, FileTestSkip, FileCountSkip, Multiply,
OperandRead: an operand in general-purpose memory, at the first and the last address that the access bank and a bank reach. -/
theorem witness_operand_ram :
    let s (b : BitVec 4) := { cell 0x11#8 0x22#8 allSet with bsr := b }
    InRam (s 0#4) (effectiveAddr (s 0#4) .access 0x00#8) ∧ InRam (s 9#4) (effectiveAddr (s 9#4) .access 0x7F#8) ∧
    InRam (s 0#4) (effectiveAddr (s 0#4) .banked 0x80#8) ∧ InRam (s 0xF#4) (effectiveAddr (s 0xF#4) .banked 0x7F#8) ∧
    ∃ s1, fetchOperand (s 0#4) .access 0x20#8 = .ok (⟨.ram 0x020#12, none⟩, 0x22#8, s1) :=
  ⟨by decide, by decide, by decide, by decide, _, rfl⟩

/-- The same statements: a register, an indirect operand whose pointer is stepped, an indirect operand that is nothing, PCL,
absent memory that reads 0. -/
theorem witness_operand_elsewhere :
    (∃ s1, fetchOperand (cell 0 0 allSet) .access 0xD8#8 = .ok (⟨.sfr .status, none⟩, 0x1F#8, s1)) ∧
    (∃ s1, fetchOperand { cell 0 7 allSet with fsr0 := 0x020#12 } .access 0xEE#8 =
      .ok (⟨.ram 0x020#12, some (.fsr0, 1#12)⟩, 0x07#8, s1)) ∧
    (∃ s1, fetchOperand { cell 0 7 allSet with fsr0 := 0xFEF#12 } .access 0xEF#8 = .ok (⟨.void, none⟩, 0x00#8, s1)) ∧
    (∃ s1, fetchOperand (cell 0 0 allSet) .access 0xF9#8 = .ok (⟨.sfr .pcl, none⟩, 0x02#8, s1)) ∧
    (∃ s1, fetchOperand { cell 0 0 allSet with bsr := 1#4, params := small .readZero } .banked 0x00#8 =
      .ok (⟨.void, none⟩, 0x00#8, s1)) :=
  ⟨⟨_, rfl⟩, ⟨_, rfl⟩, ⟨_, rfl⟩, ⟨_, rfl⟩, _, rfl⟩

/-- The same statements, and FileStore: an access that reaches nothing. -/
theorem witness_operand_fault :
    fetchOperand (cell 0 0 allSet) .access 0x80#8 = .error (.unmodelledSFR 0xF80#12) ∧
    fetchOperand { cell 0 0 allSet with bsr := 1#4, params := small .fault } .banked 0x00#8 =
      .error (.unimplementedData 0x100#12) ∧
    locate ((cell 0 0 allSet).advance 2#21) (effectiveAddr (cell 0 0 allSet) .access 0x80#8) =
      .error (.unmodelledSFR 0xF80#12) := ⟨rfl, rfl, rfl⟩

theorem witness_FileStore :
    (∃ s1, locate ((cell 0 0 allSet).advance 2#21) (effectiveAddr (cell 0 0 allSet) .access 0x7F#8) =
      .ok (⟨.ram 0x07F#12, none⟩, s1)) ∧
    (∃ s1, locate ((cell 0 0 allSet).advance 2#21) (effectiveAddr (cell 0 0 allSet) .access 0xE8#8) =
      .ok (⟨.sfr .wreg, none⟩, s1)) ∧
    InRam (cell 0 0 allSet) (effectiveAddr (cell 0 0 allSet) .access 0x7F#8) := ⟨⟨_, rfl⟩, ⟨_, rfl⟩, by decide⟩

/-- FileTestSkip, FileCountSkip: a word to skip that is one word, two words, and none. -/
theorem witness_skipWords :
    skipWords (before [0x0000#16] (cell 0 0x80#8 allSet)) = .ok 1 ∧
    skipWords (before [0xEF00#16, 0xF000#16] (cell 0 0x80#8 allSet)) = .ok 2 ∧
    skipWords (before [0xEF00#16, 0x0000#16] (cell 0 0x80#8 allSet)) =
      .error (.malformedSecondWord 0x102#21 0xEF00#16 0x0000#16) ∧
    skipWords (before [0xE800#16] (cell 0 0x80#8 allSet)) = .error (.reservedInstruction 0x102#21 0xE800#16) :=
  ⟨rfl, rfl, rfl, rfl⟩

/-- FileTestSkip: the byte read and WREG, with every condition true and false. -/
theorem witness_FileTestSkip :
    (∃ l s1, fetchOperand (before [0x0000#16] (cell 0x80#8 0x80#8 allSet)) .access 0x20#8 = .ok (l, 0x80#8, s1)) ∧
    (∃ l s1, fetchOperand (before [0x0000#16] (cell 0x7F#8 0x80#8 allSet)) .access 0x20#8 = .ok (l, 0x80#8, s1)) ∧
    (∃ l s1, fetchOperand (before [0x0000#16] (cell 0x80#8 0x7F#8 allSet)) .access 0x20#8 = .ok (l, 0x7F#8, s1)) ∧
    (∃ l s1, fetchOperand (before [0x0000#16] (cell 0x80#8 0x00#8 allSet)) .access 0x20#8 = .ok (l, 0x00#8, s1)) ∧
    ((0x80#8).toNat = (0x80#8).toNat ∧ ¬ (0x80#8).toNat = (0x7F#8).toNat) ∧
    ((0x80#8).toNat > (0x7F#8).toNat ∧ ¬ (0x80#8).toNat > (0x80#8).toNat) ∧
    ((0x7F#8).toNat < (0x80#8).toNat ∧ ¬ (0x80#8).toNat < (0x80#8).toNat) ∧
    ((0x00#8).toNat = 0 ∧ ¬ (0x80#8).toNat = 0) :=
  ⟨⟨_, _, rfl⟩, ⟨_, _, rfl⟩, ⟨_, _, rfl⟩, ⟨_, _, rfl⟩, by decide, by decide, by decide, by decide⟩

/-- FileTestSkip: bits 7 and 0 of 0x80. -/
theorem witness_FileTestSkip_bit :
    (∃ l s1, fetchOperand (before [0x0000#16] (cell 0 0x80#8 allSet)) .access 0x20#8 = .ok (l, 0x80#8, s1)) ∧
    (0x80#8).toNat / 2 ^ (7#3).toNat % 2 = 1 ∧ (0x80#8).toNat / 2 ^ (0#3).toNat % 2 = 0 := ⟨⟨_, _, rfl⟩, by decide, by decide⟩

/-- FileCountSkip: from 1 down and from 0xFF up the result is 0, from 0 down and from 0x7F up it is not; PCL reads 2, and
both its counts differ from 0. -/
theorem witness_FileCountSkip :
    (∃ l s1, fetchOperand (before [0x0000#16] (cell 0 0x01#8 allSet)) .access 0x20#8 = .ok (l, 0x01#8, s1)) ∧
    (∃ l s1, fetchOperand (before [0x0000#16] (cell 0 0xFF#8 allSet)) .access 0x20#8 = .ok (l, 0xFF#8, s1)) ∧
    (∃ s1, fetchOperand (before [0x0000#16] (cell 0 0 allSet)) .access 0xF9#8 = .ok (⟨.sfr .pcl, none⟩, 0x02#8, s1)) ∧
    (BitVec.ofNat 8 ((0x01#8).toNat + 255)).toNat = 0 ∧ (BitVec.ofNat 8 ((0x00#8).toNat + 255)).toNat ≠ 0 ∧
    (BitVec.ofNat 8 ((0xFF#8).toNat + 1)).toNat = 0 ∧ (BitVec.ofNat 8 ((0x7F#8).toNat + 1)).toNat ≠ 0 ∧
    (BitVec.ofNat 8 ((0x02#8).toNat + 255)).toNat ≠ 0 ∧ (BitVec.ofNat 8 ((0x02#8).toNat + 1)).toNat ≠ 0 :=
  ⟨⟨_, _, rfl⟩, ⟨_, _, rfl⟩, ⟨_, rfl⟩, by decide, by decide, by decide, by decide, by decide, by decide⟩

theorem witness_SkipLength_one :
    let s := before [0xD7FF#16] (sp 0)
    fetchWord s (s.pc + 2#21) = .ok 0xD7FF#16 ∧ firstWord 0xD7FF#16 = .one (.bra 0x7FF#11) := ⟨rfl, rfl⟩

theorem witness_SkipLength_reserved :
    let s := before [0x0014#16] (sp 0)
    fetchWord s (s.pc + 2#21) = .ok 0x0014#16 ∧ firstWord 0x0014#16 = .reserved := ⟨rfl, rfl⟩

theorem witness_SkipLength_two :
    let s := before [0xEE2F#16, 0xF0FF#16] (sp 0)
    fetchWord s (s.pc + 2#21) = .ok 0xEE2F#16 ∧ firstWord 0xEE2F#16 = .two (.lfsr 2#2 0xF#4) ∧
    fetchWord s (s.pc + 2#21 + 2#21) = .ok 0xF0FF#16 ∧ (secondWord (.lfsr 2#2 0xF#4) 0xF0FF#16).isSome = true ∧
    (secondWord (.lfsr 2#2 0xF#4) 0xF100#16).isSome = false := ⟨rfl, rfl, rfl, rfl, rfl⟩

/-- The word after the skip, and the second word of the instruction there, lie above the program memory that exists. -/
theorem witness_SkipLength_absent :
    let s (u : Unimplemented) := { load (sp 0) 0x1FE#21 [0xEF00#16] with params := small u, pc := 0x1FC#21 }
    let r (u : Unimplemented) := { sp 0 with params := small u, pc := 0x1FE#21 }
    fetchWord (s .fault) ((s .fault).pc + 2#21) = .ok 0xEF00#16 ∧ firstWord 0xEF00#16 = .two (.goto 0#8) ∧
    (s .fault).params.progBytes ≤ ((s .fault).pc + 4#21).toNat ∧ (s .fault).params.unimplProg = .fault ∧
    fetchWord (s .readZero) ((s .readZero).pc + 2#21) = .ok 0xEF00#16 ∧ (s .readZero).params.unimplProg = .readZero ∧
    (r .fault).params.progBytes ≤ ((r .fault).pc + 2#21).toNat ∧ (r .readZero).params.unimplProg = .readZero :=
  ⟨rfl, rfl, by decide, rfl, rfl, rfl, by decide, rfl⟩

theorem witness_MovffCopies :
    let s := cell 1 2 allSet
    ((0xF7F#12).toNat < 0xF80 ∧ InRam s 0x000#12 ∧ InRam s 0xF7F#12) ∧
    (s.params.sfrAt 0xFE8#12 ∉ [some .pcl, some .tosu, some .tosh, some .tosl] ∧ 0xF80 ≤ (0xFE8#12).toNat ∧
      s.params.sfrAt 0xFE8#12 = some .wreg) ∧
    s.params.sfrAt 0xF80#12 ∉ [some .pcl, some .tosu, some .tosh, some .tosl] := by decide

/-- MovffCopies: source and destination between registers, a source that is nothing, a destination that is nothing. -/
theorem witness_MovffCopies_places :
    let s := cell 1 2 allSet
    (∃ l s1 m s2, locate (s.advance 4#21) 0xFD8#12 = .ok (l, s1) ∧
      locate (l.settle (readCell s1 l.cell).2) 0xFE8#12 = .ok (m, s2)) ∧
    locate (s.advance 4#21) 0xF80#12 = .error (.unmodelledSFR 0xF80#12) ∧
    (∃ l s1, locate (s.advance 4#21) 0x020#12 = .ok (l, s1) ∧
      locate (l.settle (readCell s1 l.cell).2) 0xF80#12 = .error (.unmodelledSFR 0xF80#12)) :=
  ⟨⟨_, _, _, _, rfl, rfl⟩, rfl, _, _, rfl, rfl⟩

theorem witness_MovffForbidden :
    0xF80 ≤ (0xFF9#12).toNat ∧ (sp 1).params.sfrAt 0xFF9#12 ∈ [some .pcl, some .tosu, some .tosh, some .tosl] ∧
    (sp 1).params.sfrAt 0xFFD#12 ∈ [some .pcl, some .tosu, some .tosh, some .tosl] ∧
    (sp 1).params.sfrAt 0xFFF#12 ∈ [some .pcl, some .tosu, some .tosh, some .tosl] := by decide

/-! ### Control, literal, table instructions -/

/-- The eight branches, each with its flag as the mnemonic says in one of the two states and not in the other. -/
theorem witness_ConditionalBranches :
    let l (n : BitVec 8) (st : Status) := [(Instr.bc n, 0xE2#8, st.c), (.bn n, 0xE6#8, st.n), (.bnc n, 0xE3#8, !st.c),
      (.bnn n, 0xE7#8, !st.n), (.bnov n, 0xE5#8, !st.ov), (.bnz n, 0xE1#8, !st.z), (.bov n, 0xE4#8, st.ov),
      (.bz n, 0xE0#8, st.z)]
    (l 0x80#8 allSet).map (fun x => x.2.2) = [true, true, false, false, false, false, true, true] ∧
    (l 0x7F#8 Status.clear).map (fun x => x.2.2) = [false, false, true, true, true, true, false, false] ∧
    (Instr.bnov 0x7F#8, 0xE5#8, true) ∈ l 0x7F#8 Status.clear := by decide

theorem witness_CallsAndPush :
    (sp 0).stack.length < (sp 0).params.stackDepth ∧ (sp 30).stack.length < (sp 30).params.stackDepth := by decide

theorem witness_PopAndReturns_ReturnFromInterrupt :
    (sp 1).stack = [] ++ [0x001235#21] ∧ (sp 31).stack = List.replicate 30 0x001235#21 ++ [0x001235#21] := by decide

theorem witness_StackFaults : (sp 31).params.stackDepth ≤ (sp 31).stack.length ∧ (sp 0).stack = [] := by decide

theorem witness_FastCallReturns : (cell 9 0 allSet).pc.getLsbD 0 = false ∧
    ∃ t u : State, exec (.call true 0xFFFFF#20) (cell 9 0 allSet) = .next t ∧ u.stack = t.stack ∧ u.ws = t.ws ∧
      u.statuss = t.statuss ∧ u.bsrs = t.bsrs := ⟨by decide, _, _, rfl, rfl, rfl, rfl, rfl⟩

/-- The low digit's carry makes the high digit 10. -/
theorem witness_DecimalAdjust :
    let s := cell 0x9A#8 0 Status.clear
    160 = s.w.toNat + (if s.w.toNat % 16 > 9 ∨ s.status.dc = true then 6 else 0) ∧
    256 = 160 + (if 160 / 16 > 9 ∨ s.status.c = true then 96 else 0) := by decide

/-- The greatest sum. -/
theorem witness_DecimalAdjust_greatest :
    let s := cell 0xFF#8 0 allSet
    261 = s.w.toNat + (if s.w.toNat % 16 > 9 ∨ s.status.dc = true then 6 else 0) ∧
    357 = 261 + (if 261 / 16 > 9 ∨ s.status.c = true then 96 else 0) := by decide

theorem witness_DecimalAdjustAfterAdd :
    let s := cell 0x33#8 0 (add8 (bcdByte 9 9) (bcdByte 9 9) true).flags
    s.w = (add8 (bcdByte 9 9) (bcdByte 9 9) true).value ∧
    s.status = (add8 (bcdByte 9 9) (bcdByte 9 9) true).flags := by decide

theorem witness_LiteralLogic (k : BitVec 8) :
    (Instr.iorlw k, 0x09#8, or) ∈
      [(Instr.andlw k, 0x0B#8, and), (.iorlw k, 0x09#8, or), (.xorlw k, 0x0A#8, xor)] := by simp

/-- TableReads: the four forms; the pointer wraps after an increment and a decrement, the pre-increment reaches the first
absent address. -/
theorem witness_TableReads :
    let s (p : ProgAddr) (u : Unimplemented) := { sp 0 with tblptr := p, params := small u }
    ((s 0x1FF#21 .fault).tblptr.toNat < (s 0x1FF#21 .fault).params.progBytes) ∧
    IsAddr 0x200#21 ((s 0x1FF#21 .fault).tblptr.toNat + 1) ∧
    ((s 0x1FF#21 .fault).params.progBytes ≤ (0x200#21).toNat ∧ (s 0x1FF#21 .fault).params.unimplProg = .fault) ∧
    (s 0x1FF#21 .readZero).params.unimplProg = .readZero ∧
    IsAddr 0x1FFFFF#21 ((s 0#21 .fault).tblptr.toNat - 1) ∧ IsAddr 0#21 ((s 0x1FFFFF#21 .readZero).tblptr.toNat + 1) := by
  unfold IsAddr; decide

theorem witness_TableWrites :
    let s := { sp 0 with tblptr := 0x1FFFFF#21 }
    (Instr.tblwtPreInc = .tblwtPreInc ∧ IsAddr 0#21 (s.tblptr.toNat + 1) ∧ 0#21 = (0#21 : ProgAddr)) ∧
    (Instr.tblwt = .tblwt ∧ 0x1FFFFF#21 = s.tblptr) := by
  unfold IsAddr; decide

/-! ### Interrupts, sleep, resets -/

/-- The core with both enable bits set, at the address 0x0100, with one move of the environment. -/
def waiting (x : BoundaryInput) (p : Params) (n : Nat) : State :=
  { sp n with inputs := [x], params := p, gieh := true, giel := true }

/-- High and low together; low without priority; low alone with priority. The stack has room for one more. -/
theorem witness_InterruptTaken :
    let hi : BoundaryInput := { idle with irqHigh := true, irqLow := true }
    let lo : BoundaryInput := { idle with irqLow := true }
    let p0 := { Params.full with ipen := false }
    ((waiting hi Params.full 30).inputs = hi :: [] ∧ hi.reset = none ∧ hi.wdtTimeout = false ∧ hi.wdtCount = none ∧
      Params.full.interrupts = true ∧ (waiting hi Params.full 30).gieh = true ∧
      (waiting hi Params.full 30).stack.length < Params.full.stackDepth ∧ hi.irqHigh = true) ∧
    ((waiting lo p0 0).inputs = lo :: [] ∧ lo.reset = none ∧ lo.wdtTimeout = false ∧ lo.wdtCount = none ∧
      p0.interrupts = true ∧ lo.irqLow = true ∧ (waiting lo p0 0).params.ipen = false) ∧
    (lo.irqHigh = false ∧ lo.irqLow = true ∧ (waiting lo Params.full 0).params.ipen = true ∧
      (waiting lo Params.full 0).giel = true) := by decide

/-- A full return stack: high; low without priority; low with priority and GIEL, the watchdog disabled. -/
theorem witness_StackFaults_interrupt :
    let hi : BoundaryInput := { idle with irqHigh := true }
    let lo : BoundaryInput := { idle with irqLow := true, wdtTimeout := true }
    let p0 := { Params.full with ipen := false }
    ((waiting hi Params.full 31).params.stackDepth ≤ (waiting hi Params.full 31).stack.length ∧
      (waiting hi Params.full 31).inputs = hi :: [] ∧ hi.reset = none ∧ hi.wdtTimeout = false ∧
      Params.full.interrupts = true ∧ (waiting hi Params.full 31).gieh = true ∧ hi.irqHigh = true) ∧
    (lo.reset = none ∧ (waiting lo p0 31).params.wdtEnabled = false ∧ lo.irqLow = true ∧ p0.ipen = false) ∧
    (waiting lo Params.full 31).giel = true := by decide

theorem witness_InterruptMasked :
    let hi : BoundaryInput := { idle with irqHigh := true }
    let lo : BoundaryInput := { idle with irqLow := true }
    let s := { waiting hi Params.full 0 with gieh := false }
    let r := { waiting lo Params.full 0 with giel := false }
    (s.inputs = hi :: [] ∧ hi.reset = none ∧ hi.wdtTimeout = false ∧ hi.wdtCount = none ∧ s.asleep = false ∧
      s.gieh = false ∧ fetchInstr s s.pc = .ok (.nop, 1)) ∧
    (r.inputs = lo :: [] ∧ r.asleep = false ∧ lo.irqHigh = false ∧ r.params.ipen = true ∧ r.giel = false ∧
      fetchInstr r r.pc = .ok (.nop, 1)) ∧
    ({ hi with wdtTimeout := true }.wdtTimeout = true ∧ s.params.wdtEnabled = false) ∧
    ({ s with cycles := 106, wdtClearedAt := 7 }.cycles - 7 < { Params.full with wdtPeriod := 100 }.wdtPeriod) :=
  ⟨⟨rfl, rfl, rfl, rfl, rfl, rfl, rfl⟩, ⟨rfl, rfl, rfl, rfl, rfl, rfl⟩, ⟨rfl, rfl⟩, by decide⟩

/-- From the program, and from a low-priority handler. -/
theorem witness_InterruptTransparent :
    let lo : BoundaryInput := { idle with irqLow := true }
    let hi : BoundaryInput := { idle with irqHigh := true }
    let s := waiting lo Params.full 0
    let r := { waiting hi Params.full 0 with intLevel := .low }
    (s.inputs = lo :: [] ∧ lo.reset = none ∧ lo.wdtTimeout = false ∧ lo.wdtCount = none ∧ accepted s lo ≠ none ∧
      s.pc.getLsbD 0 = false ∧ s.intLevel = .none ∧ ∃ t, step s = .next t) ∧
    (r.inputs = hi :: [] ∧ hi.reset = none ∧ hi.wdtTimeout = false ∧ hi.wdtCount = none ∧ accepted r hi ≠ none ∧
      r.pc.getLsbD 0 = false ∧ r.intLevel = .low ∧ accepted r hi = some .high ∧
      ∃ t u : State, step r = .next t ∧ u.stack = t.stack ∧ u.ws = t.ws ∧ u.statuss = t.statuss ∧ u.bsrs = t.bsrs ∧
        u.intLevel = t.intLevel) :=
  ⟨⟨rfl, rfl, rfl, rfl, by decide, by decide, rfl, _, rfl⟩, rfl, rfl, rfl, rfl, by decide, by decide, rfl, rfl,
    _, _, rfl, rfl, rfl, rfl, rfl, rfl⟩

/-- A watchdog time-out; a request with GIEH = 0; a low-priority request with GIEH = 1 and GIEL = 0; nothing. -/
theorem witness_SleepAndWakeUp :
    let wd : BoundaryInput := { idle with wdtTimeout := true, wdtCount := some (0, 9) }
    let lo : BoundaryInput := { idle with irqLow := true }
    let s := { waiting wd { Params.full with wdtEnabled := true } 0 with asleep := true }
    let r := { waiting lo Params.full 0 with asleep := true, gieh := false }
    let q := { waiting lo Params.full 0 with asleep := true, giel := false }
    (s.inputs = wd :: [] ∧ wd.reset = none ∧ s.asleep = true ∧ wd.wdtTimeout = true ∧ s.params.wdtEnabled = true) ∧
    (r.inputs = lo :: [] ∧ lo.reset = none ∧ lo.wdtCount = none ∧ r.asleep = true ∧ lo.wdtTimeout = false ∧
      r.params.interrupts = true ∧ r.gieh = false ∧ lo.irqLow = true) ∧
    (q.inputs = lo :: [] ∧ q.asleep = true ∧ q.gieh = true ∧ lo.irqHigh = false ∧ q.params.ipen = true ∧
      q.giel = false) ∧
    ((waiting idle Params.full 0).inputs = idle :: [] ∧ idle.reset = none ∧ idle.wdtTimeout = false ∧
      idle.irqHigh = false ∧ idle.irqLow = false) ∧
    ({ sp 0 with asleep := true }.asleep = true ∧ { sp 0 with asleep := true }.inputs = []) := by decide

/-- Power-on, MCLR awake and asleep, a watchdog time-out awake when the period has just passed; the default table and
another. -/
theorem witness_ExternalResets :
    let po : BoundaryInput := { idle with reset := some .powerOn, irqHigh := true }
    let mc : BoundaryInput := { idle with reset := some .mclr, wdtTimeout := true, wdtCount := some (4, 2) }
    let wd : BoundaryInput := { idle with wdtTimeout := true }
    let q := { Params.full with wdtEnabled := true, wdtPeriod := 100 }
    let s := { waiting wd q 3 with cycles := 107, wdtClearedAt := 7 }
    ((waiting po q 3).inputs = po :: [] ∧ po.reset = some .powerOn ∧ q.resetState = defaultResetState) ∧
    ((waiting mc q 3).inputs = mc :: [] ∧ mc.reset = some .mclr ∧ (waiting mc q 3).asleep = false ∧
      { waiting mc q 3 with asleep := true }.asleep = true) ∧
    (s.inputs = wd :: [] ∧ wd.reset = none ∧ wd.wdtTimeout = true ∧ s.params.wdtEnabled = true ∧ s.asleep = false ∧
      s.params.wdtPeriod ≤ s.cycles - s.wdtClearedAt) := by decide

theorem witness_SoftwareReset : (sp 3).params.resetState = defaultResetState := rfl

end Sys2Proof.Tests
end

section
/-! The decoder's results are well formed: each opcode map answers a well-formed one-word instruction, or the first word of
a two-word instruction whose register number is in range. -/

namespace Sys2Proof

/-- The operand bits of a first word that its second word can complete: LFSR's register number is 0, 1 or 2
(30_encoding R120). -/
def TwoWord.WellFormed : TwoWord → Prop
  | .lfsr f _ => f ≠ 3#2
  | _ => True

/-- What a first word decides is well formed. -/
def FirstWord.WellFormed : FirstWord → Prop
  | .one i => i.wellFormed = true
  | .two t => t.WellFormed
  | .reserved => True

theorem decodeByteDA_wellFormed (w : Word) : (decodeByteDA w).WellFormed := by
  unfold decodeByteDA
  split <;> constructor

theorem decodeByteA_wellFormed (w : Word) : (decodeByteA w).WellFormed := by
  unfold decodeByteA
  split <;> rfl

theorem decodeInherent_wellFormed (w : Word) : (decodeInherent w).WellFormed := by
  unfold decodeInherent
  split <;> constructor

theorem decodeGroup0_wellFormed (w : Word) : (decodeGroup0 w).WellFormed := by
  unfold decodeGroup0
  split
  case h_1 => exact decodeInherent_wellFormed w
  case h_13 => exact decodeByteDA_wellFormed w
  all_goals rfl

/-- The one group with LFSR, whose first word is refused when its register number is 3. -/
theorem decodeGroupE_wellFormed (w : Word) : (decodeGroupE w).WellFormed := by
  unfold decodeGroupE
  split
  case h_11 =>
    split
    · next h => exact h.2
    · trivial
  all_goals constructor

theorem firstWord_wellFormed (w : Word) : (firstWord w).WellFormed := by
  unfold firstWord
  split
  case h_1 => exact decodeGroup0_wellFormed w
  case h_2 => exact decodeByteA_wellFormed w
  case h_9 => split <;> rfl
  case h_10 => exact decodeGroupE_wellFormed w
  case h_12 => exact decodeByteDA_wellFormed w
  all_goals constructor

theorem secondWord_wellFormed {t : TwoWord} {w2 : Word} {i : Instr} (ht : t.WellFormed)
    (h : secondWord t w2 = some i) : i.wellFormed = true := by
  unfold secondWord at h
  split at h
  · cases t with
    | lfsr f k =>
      simp only [Option.ite_none_right_eq_some, Option.some.injEq] at h
      obtain ⟨-, rfl⟩ := h
      exact bne_iff_ne.2 ht
    | _ =>
      cases h
      rfl
  · cases h

/-! ## What `decode` reads from words and from bytes -/

/-- The front of the words that decode is one word, or a first word and a proper second word. -/
theorem decode_ok {ws rest : List Word} {i : Instr} :
    decode ws = .ok (i, rest) ↔ ∃ w ws', ws = w :: ws' ∧
      ((firstWord w = .one i ∧ ws' = rest) ∨
        ∃ t w2, firstWord w = .two t ∧ ws' = w2 :: rest ∧ secondWord t w2 = some i) := by
  cases ws with
  | nil => simp [decode]
  | cons w ws =>
    cases hf : firstWord w with
    | one j => simp [decode, hf]
    | reserved => simp [decode, hf]
    | two t =>
      cases ws with
      | nil => simp [decode, hf]
      | cons w2 ws => cases h2 : secondWord t w2 <;> simp [decode, hf, h2, and_comm]

theorem decode_wellFormed {ws rest : List Word} {i : Instr} (h : decode ws = .ok (i, rest)) : i.wellFormed = true := by
  obtain ⟨w, ws', -, hcases⟩ := decode_ok.1 h
  have hw := firstWord_wellFormed w
  obtain ⟨hf, -⟩ | ⟨t, w2, hf, -, h2⟩ := hcases <;> rw [hf] at hw
  · exact hw
  · exact secondWord_wellFormed hw h2

theorem decodeBytes_ok {bs : List Byte} {i : Instr} :
    decodeBytes bs = .ok i ↔ ∃ rest, decode (wordsOfBytes bs) = .ok (i, rest) := by
  unfold decodeBytes
  split
  · next h => simp [h]
  · next h => simp [h]

/-- Word `k` is made of bytes `2k` and `2k + 1`, the less significant first (20_memory R78). -/
theorem wordsOfBytes_getElem? {bs : List Byte} {k : Nat} {w : Word} (h : (wordsOfBytes bs)[k]? = some w) :
    ∃ lo hi, bs[2 * k]? = some lo ∧ bs[2 * k + 1]? = some hi ∧ w = hi ++ lo := by
  induction bs using wordsOfBytes.induct generalizing k with
  | case1 lo hi bs ih =>
    cases k with
    | zero => exact ⟨lo, hi, rfl, rfl, (Option.some.inj h).symm⟩
    | succ k => exact ih h
  | case2 =>
    simp [wordsOfBytes] at h

end Sys2Proof

/-! The fetch of an instruction agrees with the decoder on the words and bytes that program memory holds. -/

namespace Sys2Proof.Machine

/-- Program memory that exists holds these bytes from the address `a` on, modulo 2^21; a word exists where its first byte
does (20_memory R80). -/
def HoldsBytes (s : State) (a : ProgAddr) (bs : List Byte) : Prop :=
  ∀ j (h : j < bs.length), s.prog.read (a + BitVec.ofNat 21 j).toNat = bs[j] ∧
    (a + BitVec.ofNat 21 (j - j % 2)).toNat < s.params.progBytes

/-- The words fetched from the address `a` on, modulo 2^21. -/
def FetchesWords (s : State) (a : ProgAddr) (ws : List Word) : Prop :=
  ∀ k w, ws[k]? = some w → fetchWord s (a + BitVec.ofNat 21 (2 * k)) = .ok w

theorem fetchWord_of_lt {s : State} {a : ProgAddr} (h : a.toNat < s.params.progBytes) :
    fetchWord s a = .ok (s.prog.read (a + 1#21).toNat ++ s.prog.read a.toNat) := if_pos h

/-- The bytes that program memory holds are fetched as the words they make up. -/
theorem HoldsBytes.fetchesWords {s : State} {a : ProgAddr} {bs : List Byte} (h : HoldsBytes s a bs) :
    FetchesWords s a (wordsOfBytes bs) := by
  intro k w hw
  obtain ⟨lo, hi, hlo, hhi, rfl⟩ := wordsOfBytes_getElem? hw
  obtain ⟨hlt, rfl⟩ := List.getElem?_eq_some_iff.1 hlo
  obtain ⟨hlt', rfl⟩ := List.getElem?_eq_some_iff.1 hhi
  obtain ⟨rlo, hex⟩ := h _ hlt
  obtain ⟨rhi, -⟩ := h _ hlt'
  have hnext : a + BitVec.ofNat 21 (2 * k) + 1#21 = a + BitVec.ofNat 21 (2 * k + 1) := by
    rw [BitVec.add_assoc, ← BitVec.ofNat_add]
  rw [Nat.mul_mod_right, Nat.sub_zero] at hex
  rw [fetchWord_of_lt hex, hnext, rlo, rhi]

/-- Where the fetched words decode, the fetch gives the instruction that they decode to. -/
theorem FetchesWords.fetchInstr {s : State} {a : ProgAddr} {ws rest : List Word} {i : Instr}
    (hws : FetchesWords s a ws) (h : decode ws = .ok (i, rest)) : ∃ n, fetchInstr s a = .ok (i, n) := by
  obtain ⟨w, ws', rfl, hcases⟩ := decode_ok.1 h
  have hw : fetchWord s a = .ok w := by simpa using hws 0 w rfl
  obtain ⟨hf, -⟩ | ⟨t, w2, hf, rfl, h2⟩ := hcases
  · exact ⟨1, fetchInstr_ok.2 ⟨w, hw, .inl ⟨hf, rfl⟩⟩⟩
  · exact ⟨2, fetchInstr_ok.2 ⟨w, hw, .inr ⟨t, w2, hf, hws 1 w2 rfl, h2, rfl⟩⟩⟩

/-- Settles O8: the bytes are fetched as the words that the decoder reads, so the fetch at the pc gives the decoded
instruction, and with no move of the environment the awake core executes it. -/
theorem stepRunsDecoded : Obligations.StepRunsDecoded := by
  intro s bs i hin hawake _ hbs hdec
  obtain ⟨rest, hdec⟩ := decodeBytes_ok.1 hdec
  obtain ⟨n, hfetch⟩ := (HoldsBytes.fetchesWords hbs).fetchInstr hdec
  exact ⟨decode_wellFormed hdec, (step_of_inputs_nil hin).trans (runCore_awake hawake hfetch)⟩

end Sys2Proof.Machine
end

section
/-! What an instruction can do, as a chain of small moves. `exec_moves` is the one case split over the instructions: what
every move keeps, every instruction keeps. -/

namespace Sys2Proof.Machine

/-! ## Changes of the visible registers -/

/-- `t` has the registers that no data address reaches, both memories and as many return addresses as `s`, and an even pc
if `s` has one: a step from `s` to `t` wrote at most the other registers. -/
structure KeepsHidden (s t : State) : Prop where
  params : t.params = s.params
  data : t.data = s.data
  prog : t.prog = s.prog
  depth : t.stack.length = s.stack.length
  hold : t.hold = s.hold
  fastSaved : (t.ws, t.statuss, t.bsrs) = (s.ws, s.statuss, s.bsrs)
  intLevel : t.intLevel = s.intLevel
  powerBits : (t.toBit, t.pdBit) = (s.toBit, s.pdBit)
  watchdog : (t.wdt, t.wdtps, t.wdtClearedAt) = (s.wdt, s.wdtps, s.wdtClearedAt)
  asleep : t.asleep = s.asleep
  inputs : t.inputs = s.inputs
  pc_even : s.pc.getLsbD 0 = false → t.pc.getLsbD 0 = false

theorem keepsHidden_registers (s : State) {pc : ProgAddr} (hpc : s.pc.getLsbD 0 = false → pc.getLsbD 0 = false)
    {w prodh prodl tablat pclath : Byte} {status : Status} {bsr : BitVec 4} {pclatu : BitVec 5} {tblptr : ProgAddr}
    {freeIdx cycles : Nat} :
    KeepsHidden s { s with
      pc := pc, w := w, status := status, bsr := bsr, prodh := prodh, prodl := prodl, pclath := pclath
      pclatu := pclatu, tblptr := tblptr, tablat := tablat, freeIdx := freeIdx, cycles := cycles } :=
  ⟨rfl, rfl, rfl, rfl, rfl, rfl, rfl, rfl, rfl, rfl, rfl, hpc⟩

theorem keepsHidden_setFsr (s : State) (n : FsrNum) (v : BitVec 12) : KeepsHidden s (s.setFsr n v) := by
  constructor <;> simp

theorem keepsHidden_readCell (s : State) (c : Cell) : KeepsHidden s (readCell s c).2 := by
  rw [readCell_frame s c]
  exact keepsHidden_registers s id

theorem keepsHidden_writeSfr (s : State) (r : Sfr) (v : Byte) : KeepsHidden s (writeSfr s r v) := by
  obtain ⟨hparams, hdata, hprog, hdepth, hhold, hws, hstatuss, hbsrs, hlevel, hto, hpd, hwdt, hwdtps, hcleared, hasleep,
    hinputs, -⟩ := writeSfr_frame s r v
  exact ⟨hparams, hdata, hprog, hdepth, hhold, by rw [hws, hstatuss, hbsrs], hlevel, by rw [hto, hpd],
    by rw [hwdt, hwdtps, hcleared], hasleep, hinputs, fun h => writeSfr_pc_even h r v⟩

/-! ## Moves -/

/-- One move of the work of instruction `i`; the premises `hi` say which instructions make it. -/
inductive Move (i : Instr) : State → State → Prop where
  | visible {s t : State} (h : KeepsHidden s t) : Move i s t
  | store {s : State} (ea : DataAddr) (v : Byte) (h : InRam s ea) :
    Move i s { s with data := s.data.write ea.toNat v }
  | push {s : State} (v : ProgAddr) (hi : (∃ fast k, i = .call fast k) ∨ (∃ n, i = .rcall n) ∨ i = .push)
    (hroom : s.stack.length < s.params.stackDepth) : Move i s { s with stack := s.stack ++ [v] }
  | pop {s : State} {rest : List ProgAddr} {v : ProgAddr}
    (hi : i = .pop ∨ (∃ k, i = .retlw k) ∨ (∃ fast, i = .retfie fast) ∨ (∃ fast, i = .ret fast))
    (hstack : s.stack = rest ++ [v]) : Move i s { s with stack := rest }
  | fastSave {s : State} (hi : ∃ k, i = .call true k) : Move i s s.fastSave
  | interruptReturn {s : State} (hi : ∃ fast, i = .retfie fast) : Move i s s.interruptReturn
  | hold {s : State} (h : Holding)
    (hi : i = .tblwt ∨ i = .tblwtPostInc ∨ i = .tblwtPostDec ∨ i = .tblwtPreInc) : Move i s { s with hold := h }
  | clearWatchdog {s : State} (pd : Bool) (hi : i = .clrwdt ∨ i = .sleep) :
    Move i s { s with wdt := 0, wdtps := 0, wdtClearedAt := s.cycles, toBit := true, pdBit := pd }
  | sleep {s : State} (hi : i = .sleep) : Move i s { s with asleep := true }
  | reset {s : State} (hi : i = .reset) : Move i s (doReset .software s)

/-- A chain of moves. -/
abbrev Moves (i : Instr) : State → State → Prop := Relation.ReflTransGen (Move i)

section
variable {i : Instr} {s s1 t : State} {a : Access} {f : BitVec 8} {l : Loc} {v : Byte}

theorem KeepsHidden.moves (h : KeepsHidden s t) : Moves i s t := .single (.visible h)

theorem moves_registers (s : State) {pc : ProgAddr} (hpc : s.pc.getLsbD 0 = false → pc.getLsbD 0 = false)
    {w prodh prodl tablat pclath : Byte} {status : Status} {bsr : BitVec 4} {pclatu : BitVec 5} {tblptr : ProgAddr}
    {freeIdx cycles : Nat} :
    Moves i s { s with
      pc := pc, w := w, status := status, bsr := bsr, prodh := prodh, prodl := prodl, pclath := pclath
      pclatu := pclatu, tblptr := tblptr, tablat := tablat, freeIdx := freeIdx, cycles := cycles } :=
  (keepsHidden_registers s hpc).moves

theorem moves_tick (s : State) (n : Nat) : Moves i s (s.tick n) := moves_registers s id

theorem moves_status (s : State) (st : Status) : Moves i s { s with status := st } := moves_registers s id

theorem moves_advance (s : State) {n : ProgAddr} (hn : n.getLsbD 0 = false) : Moves i s (s.advance n) :=
  moves_registers s fun h => (add_even_bit0 _ _ hn).trans h

theorem moves_setFsr (s : State) (n : FsrNum) (v : BitVec 12) : Moves i s (s.setFsr n v) :=
  (keepsHidden_setFsr s n v).moves

theorem moves_readCell (s : State) (c : Cell) : Moves i s (readCell s c).2 := (keepsHidden_readCell s c).moves

/-! ## The parts of an instruction with a file operand -/

theorem moves_of_locate {ea : DataAddr} (h : locate s ea = .ok (l, t)) : Moves i s t := by
  obtain rfl | ⟨n, v, rfl⟩ := locate_frame h
  · exact .refl
  · exact moves_setFsr s n v

theorem moves_settle (l : Loc) (s : State) : Moves i s (l.settle s) := by
  obtain h | ⟨n, v, h⟩ := settle_frame l s
  · exact h.symm ▸ .refl
  · exact h.symm ▸ moves_setFsr s n v

/-- A place that lies, if in memory, in memory that exists. -/
def PlaceExists (p : Params) (c : Cell) : Prop := ∀ ea, c = .ram ea → ea.toNat < min p.ramBytes 0xF80

theorem placeExists_of_locate {ea : DataAddr} (h : locate s ea = .ok (l, t)) : PlaceExists t.params l.cell := by
  obtain rfl | ⟨n, v, rfl⟩ := locate_frame h
  · exact (locate_cell h).2
  · rw [State.setFsr_params]
    exact (locate_cell h).2

theorem moves_writeCell {c : Cell} (hc : PlaceExists s.params c) (v : Byte) : Moves i s (writeCell s c v) := by
  cases c with
  | ram ea => exact .single (.store ea v (hc ea rfl))
  | sfr r => exact (keepsHidden_writeSfr s r v).moves
  | void => exact .refl

theorem moves_writeDest (d : Dest) {c : Cell} (hc : PlaceExists s.params c) (v : Byte) :
    Moves i s (writeDest s d c v) := by
  cases d with
  | w => exact moves_registers s id
  | f => exact moves_writeCell hc v

/-- An operand that is read moves the pc on, steps an FSR and changes the latches; its place exists. -/
theorem moves_of_fetchOperand (h : fetchOperand s a f = .ok (l, v, t)) :
    Moves i s t ∧ PlaceExists t.params l.cell := by
  obtain ⟨s1, hloc, -, rfl⟩ := fetchOperand_ok.1 h
  refine ⟨((moves_advance s (by decide)).trans (moves_of_locate hloc)).trans (moves_readCell s1 l.cell), ?_⟩
  rw [(keepsHidden_readCell s1 l.cell).params]
  exact placeExists_of_locate hloc

/-- An operand that is read leaves the pc at the next word. -/
theorem fetchOperand_pc (h : fetchOperand s a f = .ok (l, v, t)) : t.pc = s.pc + 2#21 := by
  obtain ⟨s1, hloc, -, rfl⟩ := fetchOperand_ok.1 h
  rw [readCell_frame s1 l.cell]
  obtain rfl | ⟨n, x, rfl⟩ := locate_frame hloc
  · rfl
  · exact State.setFsr_pc _ n x

/-- Only a write to PCL writes the pc. -/
theorem writeDest_pc {d : Dest} {c : Cell} (h : writesPcl d c = false) (s : State) (v : Byte) :
    (writeDest s d c v).pc = s.pc := by
  cases d with
  | w => rfl
  | f =>
    cases c with
    | sfr r =>
      cases r with
      | pcl => cases h
      | _ => simp [writeDest, writeCell, writeSfr]
    | _ => rfl

/-- The end of an instruction that skips, from a state whose pc has the parity of the instruction's unless it is the
destination. -/
theorem moves_skipOver {d : Dest} {c : Cell} {pc : ProgAddr}
    (hpc : writesPcl d c = false → s.pc.getLsbD 0 = pc.getLsbD 0) (n : Nat) : Moves i s (skipOver d c pc n s) := by
  unfold skipOver
  split
  · refine moves_registers s fun _ => ?_
    rw [BitVec.getLsbD_append]
    rfl
  · next hne => exact moves_registers s fun h => by rw [afterSkip_bit0, ← hpc (by simpa using hne), h]

/-! ## The shapes -/

theorem moves_of_modifyFile {d : Dest} {op : Byte → Byte × (Status → Status)} (h : modifyFile d a f op s = .next t) :
    Moves i s t := by
  obtain ⟨l, v, s1, hf, rfl⟩ := modifyFile_next.1 h
  obtain ⟨hs1, hc⟩ := moves_of_fetchOperand hf
  exact (((hs1.trans (moves_writeDest d hc _)).trans (moves_status _ _)).trans (moves_settle l _)).trans (moves_tick _ _)

theorem moves_of_storeFile {flags : Status → Status} (h : storeFile a f v flags s = .next t) : Moves i s t := by
  obtain ⟨l, s1, hloc, rfl⟩ := storeFile_next.1 h
  have hs1 : Moves i s s1 := (moves_advance s (by decide)).trans (moves_of_locate hloc)
  have hw : Moves i s1 (writeCell s1 l.cell v) := moves_writeCell (placeExists_of_locate hloc) v
  exact (((hs1.trans hw).trans (moves_status _ _)).trans (moves_settle l _)).trans (moves_tick _ _)

theorem moves_of_testFile {cond : Byte → Bool} (h : testFile a f cond s = .next t) : Moves i s t := by
  obtain ⟨l, v, s1, hf, hend⟩ := testFile_next.1 h
  have hs1 : Moves i s (l.settle s1) := (moves_of_fetchOperand hf).1.trans (moves_settle l s1)
  obtain ⟨-, rfl⟩ | ⟨n, -, -, rfl⟩ := hend
  · exact hs1.trans (moves_tick _ _)
  · refine hs1.trans (moves_registers _ fun heven => ?_)
    rwa [Loc.settle_pc, fetchOperand_pc hf, add_even_bit0 _ _ (by decide), ← afterSkip_bit0 s.pc n] at heven

theorem moves_of_countFile {d : Dest} {op : Byte → Byte} {cond : Byte → Bool}
    (h : countFile d a f op cond s = .next t) : Moves i s t := by
  obtain ⟨l, v, s1, hf, hend⟩ := countFile_next.1 h
  obtain ⟨hs1, hc⟩ := moves_of_fetchOperand hf
  have hs2 : Moves i s (l.settle (writeDest s1 d l.cell (op v))) :=
    (hs1.trans (moves_writeDest d hc _)).trans (moves_settle l _)
  obtain ⟨-, rfl⟩ | ⟨n, -, -, rfl⟩ := hend
  · exact hs2.trans (moves_tick _ _)
  · refine hs2.trans (moves_skipOver (fun hne => ?_) n)
    rw [Loc.settle_pc, writeDest_pc hne, fetchOperand_pc hf, add_even_bit0 _ _ (by decide)]

theorem moves_of_execMulwf (h : execMulwf a f s = .next t) : Moves i s t := by
  obtain ⟨l, v, s1, hf, rfl⟩ := useFile_next.1 h
  exact ((moves_of_fetchOperand hf).1.trans (moves_settle l s1)).trans (moves_registers _ id)

theorem moves_of_execMovff {fs fd : BitVec 12} (h : execMovff fs fd s = .next t) : Moves i s t := by
  obtain ⟨-, l, s1, m, s2, hsrc, hdst, rfl⟩ := execMovff_next.1 h
  have hs1 : Moves i s s1 := (moves_advance s (by decide)).trans (moves_of_locate hsrc)
  have hread : Moves i s1 s2 :=
    ((moves_readCell s1 l.cell).trans (moves_settle l _)).trans (moves_of_locate hdst)
  have hw : Moves i s2 (writeCell s2 m.cell (readCell s1 l.cell).1) := moves_writeCell (placeExists_of_locate hdst) _
  exact (((hs1.trans hread).trans hw).trans (moves_settle m _)).trans (moves_tick _ _)

/-! ## The other instructions -/

theorem moves_of_branchIf {c : Bool} {n : BitVec 8} (h : branchIf c n s = .next t) : Moves i s t := by
  rw [branchIf_eq] at h
  cases h
  refine moves_registers s fun heven => ?_
  cases c with
  | true => exact (branchTarget_bit0 _ _).trans heven
  | false => exact (add_even_bit0 _ _ (by decide)).trans heven

/-- The end of a one-word instruction. -/
theorem moves_end (s : State) (n : Nat) : Moves i s ((s.advance 2#21).tick n) :=
  (moves_advance s (by decide)).trans (moves_tick _ n)

/-- An instruction that first changes registers, then ends. -/
theorem moves_of_literalNext (hs : Moves i s s1) (h : literalNext s1 = .next t) : Moves i s t := by
  cases h
  exact hs.trans (moves_end s1 1)

theorem moves_of_tableRead {p q : ProgAddr} (h : tableRead p q s = .next t) : Moves i s t := by
  obtain ⟨x, -, rfl⟩ := tableRead_next.1 h
  exact moves_registers s fun heven => (add_even_bit0 _ _ (by decide)).trans heven

theorem moves_of_tableWrite {p q : ProgAddr}
    (hi : i = .tblwt ∨ i = .tblwtPostInc ∨ i = .tblwtPostDec ∨ i = .tblwtPreInc) (h : tableWrite p q s = .next t) :
    Moves i s t := by
  rw [tableWrite_eq] at h
  cases h
  exact .head (.hold (s.hold.set (p.extractLsb' 0 3) s.tablat) hi)
    (moves_registers { s with hold := s.hold.set (p.extractLsb' 0 3) s.tablat }
      fun heven => (add_even_bit0 _ _ (by decide)).trans heven)

/-- A target 2k is even. -/
theorem wordTarget_bit0 (k : BitVec 20) : (k ++ 0#1 : ProgAddr).getLsbD 0 = false := by
  rw [BitVec.getLsbD_append]
  rfl

theorem moves_of_execCall {fast : Bool} {k : BitVec 20} (h : execCall fast k s = .next t) :
    Moves (.call fast k) s t := by
  unfold execCall at h
  split at h
  · cases h
  · next s1 hpush =>
    obtain ⟨hroom, rfl⟩ := push_ok.1 hpush
    cases h
    refine .head (.push (s.pc + 4#21) (.inl ⟨fast, k, rfl⟩) hroom) ?_
    cases fast with
    | false => exact moves_registers _ fun _ => wordTarget_bit0 k
    | true => exact .head (.fastSave ⟨k, rfl⟩) (moves_registers _ fun _ => wordTarget_bit0 k)

theorem moves_of_execRcall {n : BitVec 11} (h : execRcall n s = .next t) : Moves (.rcall n) s t := by
  unfold execRcall at h
  split at h
  · cases h
  · next s1 hpush =>
    obtain ⟨hroom, rfl⟩ := push_ok.1 hpush
    cases h
    exact .head (.push _ (.inr (.inl ⟨n, rfl⟩)) hroom)
      (moves_registers _ fun heven => (branchTarget_bit0 _ _).trans heven)

theorem moves_of_execPush (h : execPush s = .next t) : Moves .push s t := by
  unfold execPush at h
  split at h
  · cases h
  · next s1 hpush =>
    obtain ⟨hroom, rfl⟩ := push_ok.1 hpush
    cases h
    exact .head (.push _ (.inr (.inr rfl)) hroom) (moves_end _ 1)

/-- A pop that is no fault, as a move of an instruction that pops. -/
theorem moves_of_pop (hi : i = .pop ∨ (∃ k, i = .retlw k) ∨ (∃ fast, i = .retfie fast) ∨ (∃ fast, i = .ret fast))
    {x : ProgAddr} (h : s.pop = .ok (x, t)) : Moves i s t := by
  obtain ⟨rest, hstack, rfl⟩ := pop_ok.1 h
  exact .single (.pop hi hstack)

theorem moves_of_execPop (h : execPop s = .next t) : Moves .pop s t := by
  unfold execPop at h
  split at h
  · cases h
  · next x s1 hpop =>
    cases h
    exact (moves_of_pop (.inl rfl) hpop).trans (moves_end s1 1)

theorem moves_of_execRetlw {k : BitVec 8} (h : execRetlw k s = .next t) : Moves (.retlw k) s t := by
  unfold execRetlw at h
  split at h
  · cases h
  · next x s1 hpop =>
    cases h
    exact (moves_of_pop (.inr (.inl ⟨k, rfl⟩)) hpop).trans (moves_registers s1 fun _ => evenAddr_bit0 x)

theorem moves_of_execReturn {fast : Bool} (h : execReturn fast s = .next t) : Moves (.ret fast) s t := by
  unfold execReturn at h
  split at h
  · cases h
  · next x s1 hpop =>
    cases h
    refine (moves_of_pop (.inr (.inr (.inr ⟨fast, rfl⟩))) hpop).trans ?_
    cases fast with
    | false => exact moves_registers s1 fun _ => evenAddr_bit0 x
    | true => exact moves_registers s1 fun _ => evenAddr_bit0 x

theorem moves_of_execRetfie {fast : Bool} (h : execRetfie fast s = .next t) : Moves (.retfie fast) s t := by
  unfold execRetfie at h
  split at h
  · cases h
  · next x s1 hpop =>
    cases h
    refine (moves_of_pop (.inr (.inr (.inl ⟨fast, rfl⟩))) hpop).tail (.interruptReturn ⟨fast, rfl⟩) |>.trans ?_
    cases fast with
    | false => exact moves_registers _ fun _ => evenAddr_bit0 x
    | true => exact moves_registers _ fun _ => evenAddr_bit0 x

theorem moves_of_execLfsr {n : BitVec 2} {k : BitVec 12} (h : execLfsr n k s = .next t) : Moves i s t := by
  unfold execLfsr at h
  split at h
  · next m _ =>
    cases h
    exact ((moves_setFsr s m k).trans (moves_advance _ (by decide))).trans (moves_tick _ 2)
  · cases h

end

/-- What instruction `i` does is a chain of its moves. -/
theorem exec_moves {i : Instr} {s t : State} (h : exec i s = .next t) : Moves i s t := by
  cases i with
  | addwf | addwfc | andwf | comf | decf | incf | iorwf | movf | negf | rlcf | rlncf | rrcf | rrncf | subfwb | subwf
  | subwfb | swapf | xorwf | bcf | bsf | btg => exact moves_of_modifyFile h
  | clrf | movwf | setf =>
    simp only [exec, execClrf, execMovwf, execSetf] at h
    exact moves_of_storeFile h
  | cpfseq | cpfsgt | cpfslt | tstfsz | btfsc | btfss => exact moves_of_testFile h
  | decfsz | decfsnz | incfsz | infsnz =>
    simp only [exec, execDecfsz, execDecfsnz, execIncfsz, execInfsnz] at h
    exact moves_of_countFile h
  | movff => exact moves_of_execMovff h
  | mulwf => exact moves_of_execMulwf h
  | bc | bn | bnc | bnn | bnov | bnz | bov | bz => exact moves_of_branchIf h
  | bra n =>
    cases h
    exact moves_registers s fun heven => (branchTarget_bit0 _ _).trans heven
  | goto k =>
    cases h
    exact moves_registers s fun _ => wordTarget_bit0 k
  | call => exact moves_of_execCall h
  | rcall => exact moves_of_execRcall h
  | push => exact moves_of_execPush h
  | pop => exact moves_of_execPop h
  | retlw => exact moves_of_execRetlw h
  | ret => exact moves_of_execReturn h
  | retfie => exact moves_of_execRetfie h
  | clrwdt =>
    cases h
    exact .head (.clearWatchdog true (.inl rfl)) (moves_end _ 1)
  | sleep =>
    cases h
    exact .head (.clearWatchdog false (.inr rfl)) (.head (.sleep rfl) (moves_end _ 1))
  | reset =>
    cases h
    exact .head (.reset rfl) (moves_tick _ 1)
  | nop | nopF =>
    cases h
    exact moves_end s 1
  | daw =>
    cases h
    exact (moves_registers s id).trans (moves_end _ 1)
  | addlw | andlw | iorlw | movlb | movlw | mullw | sublw | xorlw => exact moves_of_literalNext (moves_registers s id) h
  | lfsr => exact moves_of_execLfsr h
  | tblrd | tblrdPostInc | tblrdPostDec | tblrdPreInc => exact moves_of_tableRead h
  | tblwt => exact moves_of_tableWrite (.inl rfl) h
  | tblwtPostInc => exact moves_of_tableWrite (.inr (.inl rfl)) h
  | tblwtPostDec => exact moves_of_tableWrite (.inr (.inr (.inl rfl))) h
  | tblwtPreInc => exact moves_of_tableWrite (.inr (.inr (.inr rfl))) h

end Sys2Proof.Machine
end

section
/-! The invariant of the machine: every move of an instruction keeps it, and so does every event at a boundary. -/

namespace Sys2Proof.Machine

variable {i : Instr} {s t : State}

/-- A step that leaves both memories alone has to look after the pc and the return stack only. -/
theorem Inv.of_same_memories (h : Inv s) (hparams : t.params = s.params) (hdata : t.data = s.data)
    (hprog : t.prog = s.prog) (hpc : t.pc.getLsbD 0 = false) (hstack : t.stack.length ≤ s.params.stackDepth) : Inv t where
  pc_even := hpc
  stack_bounded := hparams ▸ hstack
  data_wf := hdata ▸ h.data_wf
  data_below := by
    rw [hdata, hparams]
    exact h.data_below
  prog_wf := hprog ▸ h.prog_wf
  prog_below := hprog ▸ h.prog_below

theorem KeepsHidden.inv (hk : KeepsHidden s t) (h : Inv s) : Inv t :=
  h.of_same_memories hk.params hk.data hk.prog (hk.pc_even h.pc_even) (hk.depth ▸ h.stack_bounded)

theorem Inv.store (h : Inv s) {ea : DataAddr} (hea : InRam s ea) (v : Byte) :
    Inv { s with data := s.data.write ea.toNat v } where
  pc_even := h.pc_even
  stack_bounded := h.stack_bounded
  data_wf := Memory.wf_write h.data_wf _ v
  data_below := Memory.below_write h.data_below hea v
  prog_wf := h.prog_wf
  prog_below := h.prog_below

/-- Every reset gives a state with the invariant, whatever its column of `RESET_STATE` says (70_reset R321). -/
theorem Inv.doReset (h : Inv s) (kind : ResetKind) : Inv (doReset kind s) where
  pc_even := evenAddr_bit0 _
  stack_bounded := Nat.zero_le _
  data_wf := wf_resetData h.data_wf _ _ _
  data_below := below_resetData h.data_below _ _
  prog_wf := h.prog_wf
  prog_below := h.prog_below

theorem Move.inv (hm : Move i s t) (h : Inv s) : Inv t := by
  cases hm with
  | visible hk => exact hk.inv h
  | store ea v hea => exact h.store hea v
  | push v _ hroom =>
    refine h.of_same_memories rfl rfl rfl h.pc_even ?_
    rw [List.length_append]
    exact hroom
  | pop _ hstack =>
    refine h.of_same_memories rfl rfl rfl h.pc_even (Nat.le_trans ?_ h.stack_bounded)
    rw [hstack, List.length_append]
    exact Nat.le_add_right _ _
  | interruptReturn =>
    exact h.of_same_memories (State.interruptReturn_params s) (State.interruptReturn_data s)
      (State.interruptReturn_prog s) (by simpa using h.pc_even) (by simpa using h.stack_bounded)
  | fastSave | hold | clearWatchdog | sleep => exact h.of_same_memories rfl rfl rfl h.pc_even h.stack_bounded
  | reset => exact h.doReset .software

theorem Moves.inv (hm : Moves i s t) (h : Inv s) : Inv t := by
  induction hm with
  | refl => exact h
  | tail _ hmove ih => exact hmove.inv ih

/-- Every instruction keeps the invariant. -/
theorem Inv.exec (h : Inv s) (he : exec i s = .next t) : Inv t := Moves.inv (exec_moves he) h

theorem Inv.runCore (h : Inv s) (hr : runCore s = .next t) : Inv t := by
  obtain ⟨-, rfl⟩ | ⟨-, i, n, -, he⟩ := runCore_next hr
  · exact h
  · exact h.exec he

theorem Inv.countWdt (h : Inv s) (x : BoundaryInput) : Inv (countWdt s x) :=
  h.of_same_memories (by simp) (by simp) (by simp) (by simpa using h.pc_even) (by simpa using h.stack_bounded)

theorem Inv.freeTick (h : Inv s) : Inv s.freeTick := h.of_same_memories rfl rfl rfl h.pc_even h.stack_bounded

theorem Inv.watchdogWake (h : Inv s) : Inv (watchdogWake s) :=
  h.of_same_memories rfl rfl rfl h.pc_even h.stack_bounded

theorem Inv.requestWake (h : Inv s) : Inv (requestWake s) :=
  h.of_same_memories rfl rfl rfl h.pc_even h.stack_bounded

/-- An interrupt entry that completes pushes an address with room for it, and loads the pc from a vector. -/
theorem Inv.interruptEntry (h : Inv s) {p : Priority} (he : interruptEntry s p = .ok t) : Inv t := by
  obtain ⟨hroom, rfl⟩ := interruptEntry_ok he
  refine h.of_same_memories rfl rfl rfl (evenAddr_bit0 _) ?_
  rw [List.length_append]
  exact hroom

theorem Inv.boundaryEvent (h : Inv s) {x : BoundaryInput} (he : boundaryEvent s x = some (.ok t)) : Inv t := by
  obtain ⟨k, -, hr⟩ | ⟨-, -, hr⟩ | ⟨p, -, -, hr⟩ | ⟨-, -, -, hr⟩ := boundaryEvent_some he
  · cases hr
    exact (h.doReset k.kind).freeTick
  · cases hr
    split
    · exact h.watchdogWake
    · exact (h.doReset .wdt).freeTick
  · exact h.interruptEntry hr.symm
  · cases hr
    exact h.requestWake

theorem outcome_next {r : Except Fault State} (h : outcome r = .next t) : r = .ok t := by
  cases r with
  | ok u => exact congrArg Except.ok (Host.Outcome.next.inj h)
  | error e => cases h

/-- What a step that gives a next state is: the core's own move, or the environment's move and then its event or the
core's move. -/
theorem step_next (h : step s = .next t) :
    runCore s = .next t ∨ ∃ x rest, s.inputs = x :: rest ∧
      (boundaryEvent (countWdt { s with inputs := rest } x) x = some (.ok t) ∨
        runCore (countWdt { s with inputs := rest } x) = .next t) := by
  cases hin : s.inputs with
  | nil => exact .inl (step_of_inputs_nil hin ▸ h)
  | cons x rest =>
    refine .inr ⟨x, rest, rfl, ?_⟩
    cases he : boundaryEvent (countWdt { s with inputs := rest } x) x with
    | some r => exact .inl (congrArg some (outcome_next (step_of_event hin he ▸ h)))
    | none => exact .inr (step_of_no_event hin he ▸ h)

end Sys2Proof.Machine
end

section
namespace Sys2Proof.Machine

/-- Settles O12: the environment's move only counts the watchdog before its event or the core's move, each of which keeps
the invariant. -/
theorem stepKeepsInv : Obligations.StepKeepsInv := by
  intro s t h hstep
  obtain hcore | ⟨x, rest, -, hx⟩ := step_next hstep
  · exact h.runCore hcore
  · have hrest : Inv { s with inputs := rest } := h.of_same_memories rfl rfl rfl h.pc_even h.stack_bounded
    obtain hevent | hcore := hx
    · exact (hrest.countWdt x).boundaryEvent hevent
    · exact (hrest.countWdt x).runCore hcore

/-- Settles O13: the pc is a vector with bit 0 cleared, the return stack is empty, both memories are made of listed cells
or list nothing. -/
theorem resetHasInv : Obligations.ResetHasInv where
  pc_even := evenAddr_bit0 _
  stack_bounded := Nat.zero_le _
  data_wf := Memory.wf_ofCells _ _
  data_below := Memory.below_ofCells _ _
  prog_wf := Memory.wf_nil
  prog_below := Memory.below_nil _

end Sys2Proof.Machine
end

section
/-! Who writes the hidden registers and the depth of the return stack: for each, the moves that can change it and the
instructions that make them. -/

namespace Sys2Proof.Machine

variable {i : Instr} {s t : State}

theorem Move.params (h : Move i s t) : t.params = s.params := by
  cases h with
  | visible hk => exact hk.params
  | interruptReturn => exact State.interruptReturn_params s
  | _ => rfl

theorem Moves.params (h : Moves i s t) : t.params = s.params := by
  induction h with
  | refl => rfl
  | tail _ hm ih => exact hm.params.trans ih

/-- What every move keeps unless `p`, a chain of them keeps unless `p`; no move on the way changes the parameters. -/
theorem Moves.keeps {α : Type} {p : Prop} (f : State → α)
    (hmove : ∀ a b, a.params = s.params → Move i a b → p ∨ f b = f a) (h : Moves i s t) : p ∨ f t = f s := by
  induction h with
  | refl => exact .inr rfl
  | tail hms hm ih =>
    obtain hp | hkept := hmove _ _ (Moves.params hms) hm
    · exact .inl hp
    · exact ih.imp_right hkept.trans

theorem exec_inputs (h : exec i s = .next t) : t.inputs = s.inputs := by
  refine (Moves.keeps State.inputs (fun a b _ hm => ?_) (exec_moves h)).resolve_left id
  cases hm with
  | visible hk => exact .inr hk.inputs
  | interruptReturn => exact .inr (State.interruptReturn_inputs a)
  | _ => exact .inr rfl

theorem exec_depth (h : exec i s = .next t) :
    ((∃ fast k, i = .call fast k) ∨ (∃ n, i = .rcall n) ∨ i = .push ∨ i = .pop ∨ (∃ k, i = .retlw k) ∨
      (∃ fast, i = .retfie fast) ∨ (∃ fast, i = .ret fast) ∨ i = .reset) ∨ t.stack.length = s.stack.length := by
  refine Moves.keeps (fun s => s.stack.length) (fun a b _ hm => ?_) (exec_moves h)
  cases hm with
  | visible hk => exact .inr hk.depth
  | push _ hi => exact .inl (hi.imp_right (.imp_right .inl))
  | pop hi => exact .inl (.inr (.inr (.inr (hi.imp_right (.imp_right (.imp_right .inl))))))
  | reset hi => exact .inl (by simp [hi])
  | interruptReturn => exact .inr (congrArg List.length (State.interruptReturn_stack a))
  | _ => exact .inr rfl

/-- The default `RESET_STATE` leaves the fast-save registers, TO and PD as they were at a software reset (70_reset R322). -/
theorem doReset_software_default (h : s.params.resetState = defaultResetState) :
    ((doReset .software s).ws, (doReset .software s).statuss, (doReset .software s).bsrs) = (s.ws, s.statuss, s.bsrs) ∧
      ((doReset .software s).toBit, (doReset .software s).pdBit) = (s.toBit, s.pdBit) := by
  have hrow : resetRow .software s = defaultResetMclr := congrArg ResetTable.mclr h
  simp only [doReset, resetElements, hrow]
  exact ⟨rfl, rfl⟩

theorem exec_fastSaved (h : exec i s = .next t) :
    ((∃ k, i = .call true k) ∨ (i = .reset ∧ s.params.resetState ≠ defaultResetState)) ∨
      (t.ws, t.statuss, t.bsrs) = (s.ws, s.statuss, s.bsrs) := by
  refine Moves.keeps (fun s => (s.ws, s.statuss, s.bsrs)) (fun a b hp hm => ?_) (exec_moves h)
  cases hm with
  | visible hk => exact .inr hk.fastSaved
  | fastSave hi => exact .inl (.inl hi)
  | interruptReturn => exact .inr (by simp)
  | reset hi =>
    by_cases hd : s.params.resetState = defaultResetState
    · exact .inr (doReset_software_default (hp ▸ hd)).1
    · exact .inl (.inr ⟨hi, hd⟩)
  | _ => exact .inr rfl

theorem exec_powerBits (h : exec i s = .next t) :
    (i = .clrwdt ∨ i = .sleep ∨ (i = .reset ∧ s.params.resetState ≠ defaultResetState)) ∨
      (t.toBit, t.pdBit) = (s.toBit, s.pdBit) := by
  refine Moves.keeps (fun s => (s.toBit, s.pdBit)) (fun a b hp hm => ?_) (exec_moves h)
  cases hm with
  | visible hk => exact .inr hk.powerBits
  | clearWatchdog _ hi => exact .inl (hi.imp_right .inl)
  | interruptReturn => exact .inr (by simp)
  | reset hi =>
    by_cases hd : s.params.resetState = defaultResetState
    · exact .inr (doReset_software_default (hp ▸ hd)).2
    · exact .inl (.inr (.inr ⟨hi, hd⟩))
  | _ => exact .inr rfl

theorem exec_hold (h : exec i s = .next t) :
    (i = .tblwt ∨ i = .tblwtPostInc ∨ i = .tblwtPostDec ∨ i = .tblwtPreInc ∨ i = .reset) ∨ t.hold = s.hold := by
  refine Moves.keeps State.hold (fun a b _ hm => ?_) (exec_moves h)
  cases hm with
  | visible hk => exact .inr hk.hold
  | hold _ hi => exact .inl (by tauto)
  | reset hi => exact .inl (by tauto)
  | interruptReturn => exact .inr (State.interruptReturn_hold a)
  | _ => exact .inr rfl

theorem exec_intLevel (h : exec i s = .next t) :
    ((∃ fast, i = .retfie fast) ∨ i = .reset) ∨ t.intLevel = s.intLevel := by
  refine Moves.keeps State.intLevel (fun a b _ hm => ?_) (exec_moves h)
  cases hm with
  | visible hk => exact .inr hk.intLevel
  | interruptReturn hi => exact .inl (.inl hi)
  | reset hi => exact .inl (.inr hi)
  | _ => exact .inr rfl

theorem exec_watchdog (h : exec i s = .next t) :
    (i = .clrwdt ∨ i = .sleep ∨ i = .reset) ∨
      (t.wdt, t.wdtps, t.wdtClearedAt) = (s.wdt, s.wdtps, s.wdtClearedAt) := by
  refine Moves.keeps (fun s => (s.wdt, s.wdtps, s.wdtClearedAt)) (fun a b _ hm => ?_) (exec_moves h)
  cases hm with
  | visible hk => exact .inr hk.watchdog
  | clearWatchdog _ hi => exact .inl (hi.imp_right .inl)
  | reset hi => exact .inl (.inr (.inr hi))
  | interruptReturn => exact .inr (by simp)
  | _ => exact .inr rfl

theorem exec_asleep (h : exec i s = .next t) : (i = .sleep ∨ i = .reset) ∨ t.asleep = s.asleep := by
  refine Moves.keeps State.asleep (fun a b _ hm => ?_) (exec_moves h)
  cases hm with
  | visible hk => exact .inr hk.asleep
  | sleep hi => exact .inl (.inl hi)
  | reset hi => exact .inl (.inr hi)
  | interruptReturn => exact .inr (State.interruptReturn_asleep a)
  | _ => exact .inr rfl

end Sys2Proof.Machine
end

section
namespace Sys2Proof.Machine

/-- Settles O15: one lemma for each group of registers, each by the moves that write the group. -/
theorem hiddenRegisterWriters : Obligations.HiddenRegisterWriters := by
  intro i s t h
  refine ⟨fun hne => (exec_fastSaved h).resolve_right fun he => ?_, (exec_hold h).resolve_right,
    (exec_intLevel h).resolve_right, fun hne => (exec_powerBits h).resolve_right fun he => ?_,
    fun hne => (exec_watchdog h).resolve_right fun he => ?_, (exec_asleep h).resolve_right, exec_inputs h⟩
  all_goals
    simp only [Prod.mk.injEq] at he
    tauto

/-- Settles O16: only a push, a pop and a reset change how many addresses the stack holds. -/
theorem stackDepthWriters : Obligations.StackDepthWriters := fun _ _ _ h => (exec_depth h).resolve_right

end Sys2Proof.Machine
end

section
/-! The adder and the subtracter against exact arithmetic. -/

namespace Sys2Proof.Machine

/-- The sign bit of a byte, by its number. -/
theorem byte_msb (x : Byte) : x.msb = decide (x.toNat ≥ 128) := BitVec.msb_eq_decide x

theorem byte_beq_zero (x : Byte) : (x == 0x00#8) = decide (x.toNat = 0) := by
  rw [Bool.eq_iff_iff, beq_iff_eq, decide_eq_true_iff, ← BitVec.toNat_inj]
  rfl

/-- The value of a byte as a signed number, by its unsigned one. -/
theorem byte_toInt (x : Byte) : x.toInt = if x.toNat ≥ 128 then (x.toNat : Int) - 256 else x.toNat := by
  rw [BitVec.toInt_eq_toNat_cond]
  split <;> split <;> omega

theorem isSum_add8 (x y : Byte) (cin : Bool) : IsSum x y cin (add8 x y cin).value (add8 x y cin).flags := by
  have hx := x.isLt
  have hy := y.isLt
  have hc := cin.toNat_le
  have hr : (BitVec.ofNat 8 (x.toNat + y.toNat + cin.toNat)).toNat = (x.toNat + y.toNat + cin.toNat) % 256 :=
    BitVec.toNat_ofNat _ 8
  refine ⟨hr, rfl, rfl, byte_beq_zero _, byte_msb _, ?_⟩
  simp only [add8, byte_msb, byte_toInt, hr]
  rw [Bool.eq_iff_iff]
  simp only [Bool.and_eq_true, beq_iff_eq, bne_iff_ne, ne_eq, decide_eq_decide, decide_eq_true_iff]
  split <;> split <;> omega

/-- Subtraction is the addition of the complement: of `255 - y`, which is `-1 - y` as a signed number. -/
theorem IsSum.isDifference {x y r : Byte} {borrow : Bool} {st : Status} (h : IsSum x (~~~y) (!borrow) r st) :
    IsDifference x y borrow r st := by
  obtain ⟨hr, hc, hdc, hz, hn, hov⟩ := h
  have hx := x.isLt
  have hy := y.isLt
  have hcomp : (~~~y).toNat = 255 - y.toNat := BitVec.toNat_not
  have hint : (~~~y).toInt = -1 - y.toInt := by
    rw [byte_toInt, byte_toInt, hcomp]
    split <;> split <;> omega
  have hb : (!borrow).toNat = 1 - borrow.toNat ∧ borrow.toNat ≤ 1 := by cases borrow <;> decide
  rw [hcomp, hb.1] at hr hc hdc
  rw [hint, hb.1] at hov
  refine ⟨?_, hc.trans ?_, hdc.trans ?_, hz, hn, hov.trans ?_⟩
  · omega
  all_goals
    rw [decide_eq_decide]
    omega

end Sys2Proof.Machine
end

section
namespace Sys2Proof.Machine

/-- Settles O21: the adder by integers, the subtracter by the addition of the complement. -/
theorem adderExact : Obligations.AdderExact := fun x y c => ⟨isSum_add8 x y c, (isSum_add8 x (~~~y) !c).isDifference⟩

end Sys2Proof.Machine
end

section
/-! The return stack at its two ends: full and empty. -/

namespace Sys2Proof.Machine

variable {s : State} {x : BoundaryInput}

/-- A request of an enabled level is accepted, as one of the two levels (60_exceptions R284, R286). -/
theorem accepted_of_request (hints : s.params.interrupts = true) (hgieh : s.gieh = true)
    (hreq : x.irqHigh = true ∨ (x.irqLow = true ∧ (s.params.ipen = false ∨ s.giel = true))) :
    ∃ p, accepted s x = some p := by
  have hasks : x.asksHigh s.params = true ∨ (x.asksLow s.params = true ∧ s.giel = true) := by
    cases hipen : s.params.ipen <;> simp_all [BoundaryInput.asksHigh, BoundaryInput.asksLow]
  unfold accepted
  rw [hints, hgieh]
  obtain hhigh | ⟨hlow, hgiel⟩ := hasks
  · exact ⟨.high, by simp [hhigh]⟩
  · by_cases hhigh : x.asksHigh s.params = true
    · exact ⟨.high, by simp [hhigh]⟩
    · exact ⟨.low, by simp [hhigh, hlow, hgiel]⟩

/-- With no reset and no time-out before it, an accepted request is the event of the boundary. -/
theorem boundaryEvent_of_accepted {p : Priority} (hreset : x.reset = none) (hwdt : timeOutHeard s x = false)
    (hacc : accepted s x = some p) : boundaryEvent s x = some (interruptEntry s p) := by
  simp [boundaryEvent, hreset, hwdt, hacc]

end Sys2Proof.Machine
end

section
namespace Sys2Proof.Machine

/-- Settles O44: every one of these ends in the push or the pop that is the fault. -/
theorem stackFaults : Obligations.StackFaults := by
  intro s fast k n l
  refine ⟨fun hfull => ?_, fun x rest hfull hin hreset hwdt hints hgieh hreq => ?_, fun hempty => ?_⟩
  · have hpush (v : ProgAddr) : s.push v = .error (.stackOverflow v) := push_error.2 ⟨hfull, rfl⟩
    simp only [exec, execCall, execRcall, execPush, hpush, and_self]
  · obtain ⟨p, hacc⟩ := accepted_of_request (s := countWdt { s with inputs := rest } x) (x := x)
      (by simpa using hints) (by simpa using hgieh) (by simpa using hreq)
    have hquiet : timeOutHeard (countWdt { s with inputs := rest } x) x = false := by
      rw [Bool.eq_false_iff, ne_eq, timeOutHeard_iff]
      rintro ⟨htimeout, henabled, -⟩
      simp_all
    have hentry : interruptEntry (countWdt { s with inputs := rest } x) p = .error (.stackOverflow s.pc) :=
      interruptEntry_error.2 ⟨by simpa using hfull, by simp⟩
    rw [step_of_event hin (boundaryEvent_of_accepted hreset hquiet hacc), hentry]
    rfl
  · have hpop : s.pop = .error .stackUnderflow := pop_error.2 ⟨hempty, rfl⟩
    simp only [exec, execPop, execRetlw, execReturn, execRetfie, hpop, and_self]

end Sys2Proof.Machine
end

section
/-! The registers as bytes: what a read of a register gives after a write of it, and the parts of the wide registers. -/

namespace Sys2Proof.Machine

/-! ## Parts of words, in numbers -/

/-- `a` above `b`. -/
theorem append_toNat {m n : Nat} (a : BitVec m) (b : BitVec n) : (a ++ b).toNat = 2 ^ n * a.toNat + b.toNat := by
  rw [BitVec.toNat_append, ← Nat.shiftLeft_add_eq_or_of_lt b.isLt, Nat.shiftLeft_eq, Nat.mul_comm]

/-- `n` bits from bit `i` up. -/
theorem extract_toNat {m : Nat} (x : BitVec m) (i n : Nat) : (x.extractLsb' i n).toNat = x.toNat / 2 ^ i % 2 ^ n := by
  rw [BitVec.extractLsb'_toNat, Nat.shiftRight_eq_div_pow]

/-- A byte cut to its low `n` bits, as a byte again. -/
theorem setWidth_setWidth_byte (v : Byte) (n : Nat) (hn : n ≤ 8) :
    (v.setWidth n).setWidth 8 = v &&& BitVec.ofNat 8 (2 ^ n - 1) := by
  have hpow : 2 ^ n ≤ 2 ^ 8 := Nat.pow_le_pow_right (by decide) hn
  apply BitVec.eq_of_toNat_eq
  rw [BitVec.toNat_and, BitVec.toNat_ofNat, Nat.mod_eq_of_lt (a := 2 ^ n - 1) (by omega),
    Nat.and_two_pow_sub_one_eq_mod, BitVec.toNat_setWidth, BitVec.toNat_setWidth]
  exact Nat.mod_eq_of_lt (Nat.lt_of_lt_of_le (Nat.mod_lt _ (Nat.two_pow_pos n)) hpow)

/-- A byte with bit 0 cleared. -/
theorem clearBit0_toNat (v : Byte) : (v &&& 0xFE#8).toNat = v.toNat - v.toNat % 2 := by
  have hshift : v &&& 0xFE#8 = (v >>> 1) <<< 1 := by
    ext j hj
    simp only [BitVec.getElem_and, BitVec.getElem_shiftLeft, BitVec.getElem_ushiftRight]
    interval_cases j <;> simp [BitVec.getLsbD_eq_getElem]
  rw [hshift, BitVec.toNat_shiftLeft, BitVec.toNat_ushiftRight, Nat.shiftLeft_eq, Nat.shiftRight_eq_div_pow]
  omega

/-! ## Parts of registers -/

/-- The middle one of three parts. -/
theorem middle_of_append (a : BitVec 5) (v b : Byte) : (a ++ (v ++ b) : ProgAddr).extractLsb' 8 8 = v := by
  rw [BitVec.extractLsb'_append_eq_of_add_le (by decide), BitVec.extractLsb'_append_eq_left]

/-! ## The top of the return stack -/

variable {s : State}

theorem State.setTos_stack (h : s.stack ≠ []) (v : ProgAddr) : (s.setTos v).stack = s.stack.dropLast ++ [v] := by
  simp [State.setTos, h]

theorem State.setTos_tos (h : s.stack ≠ []) (v : ProgAddr) : (s.setTos v).tos = v := by
  simp [State.tos, State.setTos_stack h]

theorem State.setTos_ne_nil (h : s.stack ≠ []) (v : ProgAddr) : (s.setTos v).stack ≠ [] := by
  simp [State.setTos_stack h]

/-- The addresses below the top stay, with an empty stack also. -/
theorem State.setTos_dropLast (s : State) (v : ProgAddr) : (s.setTos v).stack.dropLast = s.stack.dropLast := by
  by_cases h : s.stack = []
  · simp [State.setTos, h]
  · rw [State.setTos_stack h, List.dropLast_concat]

end Sys2Proof.Machine
end

section
namespace Sys2Proof.Machine

/-- Settles O24: the bits of the pc, by numbers. -/
theorem pclAccess : Obligations.PclAccess := by
  intro s v
  have hpc := s.pc.isLt
  refine ⟨?_, ?_, ?_, rfl, ?_, rfl⟩
  all_goals simp only [readSfr, writeSfr, extract_toNat, append_toNat, clearBit0_toNat]
  all_goals omega

/-- Settles O23: each part is the register's bits at its place, so the last value of each part is what counts. -/
theorem wideRegisterParts : Obligations.WideRegisterParts := by
  intro s h l u n
  have hh := h.isLt
  have hl := l.isLt
  have hu := u.isLt
  refine ⟨?_, ?_, fun hstack => ?_, ?_⟩
  · simp only [writeSfr, State.setFsr_fsr, append_toNat, extract_toNat, BitVec.toNat_setWidth]
    omega
  · simp only [writeSfr, append_toNat, extract_toNat, BitVec.toNat_setWidth]
    omega
  · simp only [writeSfr, State.setTos_tos hstack, State.setTos_tos (State.setTos_ne_nil hstack _),
      State.setTos_tos (State.setTos_ne_nil (State.setTos_ne_nil hstack _) _), append_toNat, extract_toNat,
      BitVec.toNat_setWidth]
    omega
  · simp only [writeSfr, State.setTos_dropLast]

end Sys2Proof.Machine
end

section
/-! STATUS and INTCON as bytes, for every layout. -/

namespace Sys2Proof.Machine

/-- STATUS read as a byte after it was written as one: the bits that hold a flag, whichever flags share a bit. -/
theorem toByte_ofByte_getLsbD (l : StatusLayout) (v : Byte) {j : Nat} (hj : j < 8) :
    ((Status.ofByte l v).toByte l).getLsbD j =
      (v.getLsbD j && decide (j ∈ [l.n.toNat, l.ov.toNat, l.z.toNat, l.dc.toNat, l.c.toNat])) := by
  simp only [Status.toByte, Status.ofByte, putBit_getLsbD _ _ _ hj]
  split_ifs <;> simp_all

/-- With the default layout these are bits 4..0. -/
theorem toByte_ofByte_default (v : Byte) :
    (Status.ofByte defaultStatusLayout v).toByte defaultStatusLayout = v &&& 0x1F#8 := by
  apply BitVec.eq_of_getLsbD_eq
  intro j hj
  rw [toByte_ofByte_getLsbD _ _ hj, BitVec.getLsbD_and]
  congr 1
  interval_cases j <;> rfl

/-- An enable bit of INTCON, read after INTCON was written. -/
theorem intcon_getLsbD (s : State) (v : Byte) {j : Nat}
    (hj : j = s.params.intconLayout.gieh.toNat ∨ j = s.params.intconLayout.giel.toNat) :
    (readSfr (writeSfr s .intcon v) .intcon).1.getLsbD j = v.getLsbD j := by
  have hlt : j < 8 := by
    obtain rfl | rfl := hj <;> exact BitVec.isLt _
  simp only [readSfr, writeSfr, putBit_getLsbD _ _ _ hlt]
  split_ifs <;> simp_all

end Sys2Proof.Machine
end

section
namespace Sys2Proof.Machine

/-- Settles O22: a register of its own field gives the byte back, a narrower one the byte cut, a part of a wide one the
bits at its place, STATUS and INTCON the bits of their layouts. -/
theorem registerReadBack : Obligations.RegisterReadBack := by
  intro s v n
  have hfive : (v.setWidth 5).setWidth 8 = v &&& 0x1F#8 := setWidth_setWidth_byte v 5 (by decide)
  have hfour : (v.setWidth 4).setWidth 8 = v &&& 0x0F#8 := setWidth_setWidth_byte v 4 (by decide)
  refine ⟨rfl, rfl, rfl, rfl, rfl, hfive, hfour, ?status, ?fsrh, ?fsrl, ?tblptru, ?tblptrh, ?tblptrl, ?tos, ?intcon⟩
  case status =>
    rintro l rfl
    exact ⟨rfl, fun j hj => toByte_ofByte_getLsbD _ v hj, fun hl => by
      simpa only [readSfr, writeSfr, hl] using toByte_ofByte_default v⟩
  case fsrh => simp only [readSfr, writeSfr, State.setFsr_fsr, BitVec.extractLsb'_append_eq_left, hfour]
  case fsrl => simp only [readSfr, writeSfr, State.setFsr_fsr, BitVec.extractLsb'_append_eq_right]
  case tblptru => simp only [readSfr, writeSfr, BitVec.extractLsb'_append_eq_left, hfive]
  case tblptrh => exact middle_of_append _ _ _
  case tblptrl => exact BitVec.extractLsb'_append_eq_right
  case tos =>
    intro hstack
    simp only [readSfr, writeSfr, State.setTos_tos hstack]
    exact ⟨(congrArg _ BitVec.extractLsb'_append_eq_left).trans hfive, middle_of_append _ _ _,
      BitVec.extractLsb'_append_eq_right⟩
  case intcon =>
    rintro l rfl
    refine ⟨rfl, rfl, fun j hj => intcon_getLsbD s v hj, fun hl => ?_⟩
    apply BitVec.eq_of_getLsbD_eq
    intro j hj
    rw [BitVec.getLsbD_extractLsb', BitVec.getLsbD_extractLsb', intcon_getLsbD s v]
    rw [hl]
    interval_cases j
    · exact .inr rfl
    · exact .inl rfl

end Sys2Proof.Machine
end

section
/-! Program memory and the parameters: no move of an instruction and no event at a boundary changes them. -/

namespace Sys2Proof.Machine

variable {i : Instr} {s t u : State}

/-- `t` has the program memory and the parameters of `s`. -/
structure KeepsProgram (s t : State) : Prop where
  prog : t.prog = s.prog
  params : t.params = s.params

theorem KeepsProgram.trans (hst : KeepsProgram s t) (htu : KeepsProgram t u) : KeepsProgram s u :=
  ⟨htu.prog.trans hst.prog, htu.params.trans hst.params⟩

theorem Move.prog (h : Move i s t) : t.prog = s.prog := by
  cases h with
  | visible hk => exact hk.prog
  | interruptReturn => exact State.interruptReturn_prog s
  | _ => rfl

/-- Every instruction, TBLWT included, leaves program memory alone (20_memory R88). -/
theorem keepsProgram_of_exec (h : exec i s = .next t) : KeepsProgram s t where
  prog := (Moves.keeps State.prog (fun _ _ _ hm => .inr hm.prog) (exec_moves h)).resolve_left id
  params := Moves.params (exec_moves h)

theorem keepsProgram_of_runCore (h : runCore s = .next t) : KeepsProgram s t := by
  obtain ⟨-, rfl⟩ | ⟨-, i, n, -, he⟩ := runCore_next h
  · exact ⟨rfl, rfl⟩
  · exact keepsProgram_of_exec he

/-- A reset, a wake-up and an interrupt entry change registers and data memory only. -/
theorem keepsProgram_of_boundaryEvent {x : BoundaryInput} (h : boundaryEvent s x = some (.ok t)) :
    KeepsProgram s t := by
  obtain ⟨k, -, hr⟩ | ⟨-, -, hr⟩ | ⟨p, -, -, hr⟩ | ⟨-, -, -, hr⟩ := boundaryEvent_some h
  · cases hr
    exact ⟨rfl, rfl⟩
  · cases hr
    split <;> exact ⟨rfl, rfl⟩
  · obtain ⟨-, rfl⟩ := interruptEntry_ok hr.symm
    exact ⟨rfl, rfl⟩
  · cases hr
    exact ⟨rfl, rfl⟩

theorem keepsProgram_countWdt (s : State) (x : BoundaryInput) (rest : List BoundaryInput) :
    KeepsProgram s (countWdt { s with inputs := rest } x) :=
  ⟨countWdt_prog _ x, countWdt_params _ x⟩

end Sys2Proof.Machine
end

section
namespace Sys2Proof.Machine

/-- Settles O14: the environment's move only counts the watchdog before its event or the core's move, and neither of these
changes program memory or a parameter. -/
theorem stepKeepsProgram : Obligations.StepKeepsProgram := by
  intro s t h
  suffices hk : KeepsProgram s t from ⟨hk.prog, hk.params⟩
  obtain hcore | ⟨x, rest, -, hx⟩ := step_next h
  · exact keepsProgram_of_runCore hcore
  · have hcount := keepsProgram_countWdt s x rest
    obtain hevent | hcore := hx
    · exact hcount.trans (keepsProgram_of_boundaryEvent hevent)
    · exact hcount.trans (keepsProgram_of_runCore hcore)

end Sys2Proof.Machine
end

section
/-! Fetches above the program memory that exists (20_memory R80). -/

namespace Sys2Proof.Machine

variable {s : State}

theorem fetchWord_absent_fault {a : ProgAddr} (h : s.params.progBytes ≤ a.toNat) (hu : s.params.unimplProg = .fault) :
    fetchWord s a = .error (.unimplementedProgram a) := by
  unfold fetchWord
  rw [if_neg (Nat.not_lt.2 h), hu]

theorem fetchWord_absent_readZero {a : ProgAddr} (h : s.params.progBytes ≤ a.toNat)
    (hu : s.params.unimplProg = .readZero) : fetchWord s a = .ok 0x0000#16 := by
  unfold fetchWord
  rw [if_neg (Nat.not_lt.2 h), hu]

theorem fetchInstr_of_fetchWord_error {a : ProgAddr} {e : Fault} (h : fetchWord s a = .error e) :
    fetchInstr s a = .error e := by
  unfold fetchInstr
  rw [h]

/-- Awake, where the fetch at the pc faults, the core's own move is the fault. -/
theorem runCore_of_fetch_error {e : Fault} (ha : s.asleep = false) (hf : fetchInstr s s.pc = .error e) :
    runCore s = .fault e := by
  unfold runCore
  rw [ha, hf]
  rfl

theorem exec_nop_eq (s : State) :
    exec .nop s = .next { s with pc := s.pc + 2#21, cycles := s.cycles + 1 } := rfl

end Sys2Proof.Machine
end

section
namespace Sys2Proof.Machine

/-- Settles O11: the fetch at the pc is the fault, or gives the word 0, which is NOP. -/
theorem stepAboveProgramMemory : Obligations.StepAboveProgramMemory := by
  intro s hin hawake habsent
  rw [step_of_inputs_nil hin]
  constructor
  · intro hu
    exact runCore_of_fetch_error hawake (fetchInstr_of_fetchWord_error (fetchWord_absent_fault habsent hu))
  · intro hu
    have hfetch : fetchInstr s s.pc = .ok (.nop, 1) :=
      fetchInstr_ok.2 ⟨_, fetchWord_absent_readZero habsent hu, .inl ⟨rfl, rfl⟩⟩
    exact (runCore_awake hawake hfetch).trans (exec_nop_eq s)

end Sys2Proof.Machine
end

section
/-! What a memory reads as after a write. -/

namespace Sys2Proof.Machine

theorem Memory.read_cons (a k : Nat) (v : Byte) (m : Memory) :
    Memory.read ((a, v) :: m) k = if a = k then v else m.read k := rfl

/-- An address that the list does not hold reads as unlisted. -/
theorem Memory.read_of_not_listed {m : Memory} {k : Nat} (h : ∀ c ∈ m, c.1 ≠ k) : m.read k = Memory.unlisted := by
  induction m with
  | nil => rfl
  | cons c m ih =>
    obtain ⟨hc, hm⟩ := List.forall_mem_cons.1 h
    exact (if_neg hc).trans (ih hm)

theorem Memory.wf_tail {c : Host.Cell} {m : Memory} (h : Memory.wf (c :: m)) : Memory.wf m :=
  ⟨(List.pairwise_cons.1 h.1).2, fun d hd => h.2 d (List.mem_cons_of_mem c hd)⟩

/-- In canonical form the entries after the first hold neither its address nor a lower one. -/
theorem Memory.read_tail {c : Host.Cell} {m : Memory} {k : Nat} (h : Memory.wf (c :: m)) (hk : k ≤ c.1) :
    Memory.read m k = Memory.unlisted :=
  Memory.read_of_not_listed fun d hd => by
    have := (List.pairwise_cons.1 h.1).1 d hd
    omega

/-- An entry put before a memory that holds none for its address, or left out where it would be of the unlisted value. -/
theorem Memory.read_put {m : Memory} {a : Nat} (h : m.read a = Memory.unlisted) (v : Byte) (b : Nat) :
    Memory.read (if v = Memory.unlisted then m else (a, v) :: m) b = if a = b then v else m.read b := by
  split
  · next hv =>
    split
    · next hab => rw [← hab, h, hv]
    · rfl
  · rfl

/-- The recursion of the write: the entry is put before the first one, or in its place, where the entries after it hold no
such address, or behind it. -/
theorem Memory.read_write {m : Memory} (h : m.wf) (a b : Nat) (v : Byte) :
    (m.write a v).read b = if a = b then v else m.read b := by
  induction m with
  | nil => exact Memory.read_put rfl v b
  | cons c m ih =>
    obtain ⟨k, u⟩ := c
    unfold Memory.write
    split
    · next hlt =>
      have hfirst : Memory.read ((k, u) :: m) a = Memory.unlisted :=
        (if_neg hlt.ne').trans (Memory.read_tail h hlt.le)
      exact Memory.read_put hfirst v b
    · split
      · next heq =>
        subst heq
        rw [Memory.read_put (Memory.read_tail h le_rfl), Memory.read_cons]
        split <;> rfl
      · next hne =>
        rw [Memory.read_cons, Memory.read_cons, ih (Memory.wf_tail h)]
        split
        · next hkb => rw [if_neg (hkb ▸ hne)]
        · rfl

end Sys2Proof.Machine
end

section
namespace Sys2Proof.Machine

/-- Settles O18. -/
theorem memoryReadWrite : Obligations.MemoryReadWrite := fun _ a b v h => Memory.read_write h a b v

end Sys2Proof.Machine
end

section
/-! What stands at a data address, case by case, and where an indirect operand lies. -/

namespace Sys2Proof.Machine

section
variable {p : Params} {i : DataAddr}

theorem cellAt_absent_fault (hi : i.toNat < 0xF80) (ha : p.ramBytes ≤ i.toNat) (hu : p.unimplData = .fault) :
    cellAt p i = .error (.unimplementedData i) := by
  unfold cellAt
  rw [if_pos hi, if_neg (Nat.not_lt.2 ha), hu]

theorem cellAt_absent_readZero (hi : i.toNat < 0xF80) (ha : p.ramBytes ≤ i.toNat) (hu : p.unimplData = .readZero) :
    cellAt p i = .ok .void := by
  unfold cellAt
  rw [if_pos hi, if_neg (Nat.not_lt.2 ha), hu]

theorem cellAt_unmapped (hi : 0xF80 ≤ i.toNat) (hs : p.sfrAt i = none) : cellAt p i = .error (.unmodelledSFR i) := by
  unfold cellAt
  rw [if_neg (Nat.not_lt.2 hi), hs]

theorem cellAt_not_modelled {r : Sfr} (hi : 0xF80 ≤ i.toNat) (hs : p.sfrAt i = some r) (hm : p.models r = false) :
    cellAt p i = .error (.unmodelledSFR i) := by
  unfold cellAt
  rw [if_neg (Nat.not_lt.2 hi), hs]
  simp [hm]

end

section
variable {s : State} {i ea : DataAddr} {m : IndMode} {n : FsrNum}

/-- The address and the state that `pointer` gives, by the address in numbers (93_implementation_defined G3). -/
theorem PointsTo.pointer_eq (h : PointsTo s m n ea) :
    (pointer s m n).1 = ea ∧ (pointer s m n).2.1 = if m = .preinc then s.setFsr n ea else s := by
  cases m with
  | indf | postinc | postdec => exact ⟨h.symm, rfl⟩
  | preinc =>
    have hea : s.fsr n + 1#12 = ea := by
      simp only [PointsTo] at h
      bv_omega
    subst hea
    exact ⟨rfl, rfl⟩
  | plusw =>
    refine ⟨?_, rfl⟩
    have hoffset : ((s.w.signExtend 12).toNat : Int) = s.w.toInt % 4096 := by
      rw [BitVec.signExtend, BitVec.toNat_ofInt]
      exact Int.toNat_of_nonneg (Int.emod_nonneg _ (by decide))
    simp only [PointsTo] at h
    apply BitVec.eq_of_toNat_eq
    simp only [pointer, BitVec.toNat_add]
    omega

/-- The step of the FSR that is due after the use of the operand. -/
theorem settle_pointer (s : State) (m : IndMode) (n : FsrNum) (c : Cell) (t : State) :
    Loc.settle ⟨c, (pointer s m n).2.2⟩ t =
      if m = .postinc then t.setFsr n (t.fsr n + 1#12) else if m = .postdec then t.setFsr n (t.fsr n - 1#12) else t := by
  cases m with
  | postdec => exact congrArg (t.setFsr n) (BitVec.sub_eq_add_neg (t.fsr n) 1#12).symm
  | _ => rfl

/-- An indirect operand lies where its register points. -/
theorem locate_indirect {c : Cell} (hi : cellAt s.params i = .ok (.sfr (.ind m n)))
    (hc : cellAt s.params (pointer s m n).1 = .ok c) (hne : ∀ m' n', c ≠ .sfr (.ind m' n')) :
    locate s i = .ok (⟨c, (pointer s m n).2.2⟩, (pointer s m n).2.1) := by
  unfold locate
  rw [hi]
  simp only [hc]

/-- An indirect operand that arrives at an indirect register lies nowhere. -/
theorem locate_indirect_at_indirect {m' : IndMode} {n' : FsrNum} (hi : cellAt s.params i = .ok (.sfr (.ind m n)))
    (hc : cellAt s.params (pointer s m n).1 = .ok (.sfr (.ind m' n'))) :
    locate s i = .ok (⟨.void, (pointer s m n).2.2⟩, (pointer s m n).2.1) := by
  unfold locate
  rw [hi]
  simp only [hc]

theorem locate_indirect_error {e : Fault} (hi : cellAt s.params i = .ok (.sfr (.ind m n)))
    (hc : cellAt s.params (pointer s m n).1 = .error e) : locate s i = .error e := by
  unfold locate
  rw [hi]
  simp only [hc]

end

end Sys2Proof.Machine
end

section
namespace Sys2Proof.Machine

/-- Settles O25: the operand lies where the pointer's address leads, by what stands there. -/
theorem indirectAddressing : Obligations.IndirectAddressing := by
  intro s i ea m n hi hind hon hpoints
  have hreg : cellAt s.params i = .ok (.sfr (.ind m n)) := cellAt_sfr hi hind hon
  obtain ⟨haddr, hstate⟩ := hpoints.pointer_eq
  subst haddr
  refine ⟨(pointer s m n).2.2, (pointer s m n).2.1, hstate, settle_pointer s m n, ?memory, ?register, ?indirect, ?absent,
    fun e he => locate_indirect_error hreg he, fun t v => ⟨rfl, rfl⟩⟩
  case memory => exact fun hea => locate_indirect hreg (cellAt_ram hea) nofun
  case register =>
    intro r hea hr hmodelled hne
    exact locate_indirect hreg (cellAt_sfr hea hr hmodelled) fun m' n' he => hne m' n' (Cell.sfr.inj he)
  case indirect => exact fun m' n' hea hr => locate_indirect_at_indirect hreg (cellAt_sfr hea hr hon)
  case absent => exact fun habsent hea hu => locate_indirect hreg (cellAt_absent_readZero hea habsent hu) nofun

/-- Settles O19: the four bits above `f` are BSR, or all 0 or all 1. -/
theorem effectiveAddress : Obligations.EffectiveAddress := by
  intro s f
  refine ⟨append_toNat s.bsr f, ?_⟩
  have hlow : (0x0#4 ++ f : DataAddr).toNat = f.toNat := (append_toNat 0x0#4 f).trans (Nat.zero_add _)
  have hhigh : (0xF#4 ++ f : DataAddr).toNat = 0xF00 + f.toNat := append_toNat 0xF#4 f
  exact (apply_ite BitVec.toNat _ _ _).trans (if_congr Iff.rfl hlow hhigh)

/-- Settles O20: one lemma for each kind of address. -/
theorem dataAddressSpace : Obligations.DataAddressSpace := fun _ _ =>
  ⟨cellAt_ram, cellAt_absent_fault, cellAt_absent_readZero, cellAt_unmapped, fun _ => cellAt_sfr,
    fun _ => cellAt_not_modelled⟩

end Sys2Proof.Machine
end

section
/-! The formats of the encoder, field by field: what the selectors and the fields of the decoder read from an encoded word
(30_encoding R101 to R109). -/

namespace Sys2Proof

open Machine (append_toNat extract_toNat)

/-! ## The words of each format, in numbers -/

theorem encByteDA_toNat (op : BitVec 6) (d : Dest) (a : Access) (f : BitVec 8) :
    (encByteDA op d a f).toNat = 1024 * op.toNat + 512 * d.bit.toNat + 256 * a.bit.toNat + f.toNat := by
  have hop : (encByteDA op d a f).toNat = 2 ^ 10 * op.toNat + (d.bit ++ (a.bit ++ f)).toNat := append_toNat _ _
  have hd := append_toNat d.bit (a.bit ++ f)
  have ha := append_toNat a.bit f
  omega

theorem encByteA_toNat (op : BitVec 7) (a : Access) (f : BitVec 8) :
    (encByteA op a f).toNat = 512 * op.toNat + 256 * a.bit.toNat + f.toNat := by
  have hop : (encByteA op a f).toNat = 2 ^ 9 * op.toNat + (a.bit ++ f).toNat := append_toNat _ _
  have ha := append_toNat a.bit f
  omega

theorem encBit_toNat (op : BitVec 4) (b : BitVec 3) (a : Access) (f : BitVec 8) :
    (encBit op b a f).toNat = 4096 * op.toNat + 512 * b.toNat + 256 * a.bit.toNat + f.toNat := by
  have hop : (encBit op b a f).toNat = 2 ^ 12 * op.toNat + (b ++ (a.bit ++ f)).toNat := append_toNat _ _
  have hb := append_toNat b (a.bit ++ f)
  have ha := append_toNat a.bit f
  omega

theorem encLow8_toNat (op k : BitVec 8) : (encLow8 op k).toNat = 256 * op.toNat + k.toNat := append_toNat op k

theorem encBranch11_toNat (op : BitVec 5) (n : BitVec 11) : (encBranch11 op n).toNat = 2048 * op.toNat + n.toNat :=
  append_toNat op n

theorem encLow12_toNat (op : BitVec 4) (x : BitVec 12) : (encLow12 op x).toNat = 4096 * op.toNat + x.toNat :=
  append_toNat op x

/-! ## Fields of a word from its number -/

variable {w : Word}

theorem lowByte_eq {f : BitVec 8} (h : w.toNat % 256 = f.toNat) : lowByte w = f :=
  BitVec.eq_of_toNat_eq ((extract_toNat w 0 8).trans (by omega))

theorem getLsbD_eq_decide {n : Nat} (x : BitVec n) (j : Nat) : x.getLsbD j = decide (x.toNat / 2 ^ j % 2 = 1) := by
  rw [BitVec.getLsbD, Nat.testBit_eq_decide_div_mod_eq]

theorem accessField_eq {a : Access} (h : w.toNat / 256 % 2 = a.bit.toNat) : accessField w = a := by
  unfold accessField
  rw [getLsbD_eq_decide, show w.toNat / 2 ^ 8 % 2 = a.bit.toNat from h]
  cases a <;> rfl

theorem destField_eq {d : Dest} (h : w.toNat / 512 % 2 = d.bit.toNat) : destField w = d := by
  unfold destField
  rw [getLsbD_eq_decide, show w.toNat / 2 ^ 9 % 2 = d.bit.toNat from h]
  cases d <;> rfl

/-! ## What the selectors read from each format -/

theorem nibble_toNat (w : Word) : (w.extractLsb' 12 4).toNat = w.toNat / 4096 :=
  (extract_toNat w 12 4).trans (by omega)

section byteDA
variable (op : BitVec 6) (d : Dest) (a : Access) (f : BitVec 8)

theorem encByteDA_opcode : ((encByteDA op d a f).extractLsb' 10 6).toNat = op.toNat := by
  rw [extract_toNat, encByteDA_toNat]
  omega

theorem encByteDA_dest : destField (encByteDA op d a f) = d := destField_eq (by rw [encByteDA_toNat]; omega)

theorem encByteDA_access : accessField (encByteDA op d a f) = a := accessField_eq (by rw [encByteDA_toNat]; omega)

theorem encByteDA_file : lowByte (encByteDA op d a f) = f := lowByte_eq (by rw [encByteDA_toNat]; omega)

/-- Bits 15..12 from 0001 to 0101 lead to the `byte-d-a` map (30_encoding R115). -/
theorem firstWord_encByteDA (h : 4 ≤ op.toNat ∧ op.toNat < 24) :
    firstWord (encByteDA op d a f) = decodeByteDA (encByteDA op d a f) := by
  have hnibble : ((encByteDA op d a f).extractLsb' 12 4).toNat = op.toNat / 4 := by
    rw [nibble_toNat, encByteDA_toNat]
    omega
  unfold firstWord
  rw [hnibble]
  split
  case h_12 => rfl
  all_goals omega

/-- DECF stands in the group of bits 15..12 = 0000, where bit 10 leads to the `byte-d-a` map (30_encoding R115). -/
theorem firstWord_encByteDA_one : firstWord (encByteDA 1#6 d a f) = decodeByteDA (encByteDA 1#6 d a f) := by
  have hword : (encByteDA 1#6 d a f).toNat = 1024 * 1 + 512 * d.bit.toNat + 256 * a.bit.toNat + f.toNat :=
    encByteDA_toNat 1#6 d a f
  have hnibble : ((encByteDA 1#6 d a f).extractLsb' 12 4).toNat = 0 := by
    rw [nibble_toNat]
    omega
  have hselect : ((encByteDA 1#6 d a f).extractLsb' 8 4).toNat = 4 + 2 * d.bit.toNat + a.bit.toNat := by
    rw [extract_toNat]
    omega
  simp only [firstWord, hnibble, decodeGroup0, hselect]
  cases d <;> cases a <;> rfl

end byteDA

section byteA
variable (op : BitVec 7) (a : Access) (f : BitVec 8)

theorem encByteA_access : accessField (encByteA op a f) = a := accessField_eq (by rw [encByteA_toNat]; omega)

theorem encByteA_file : lowByte (encByteA op a f) = f := lowByte_eq (by rw [encByteA_toNat]; omega)

theorem encByteA_selector : ((encByteA op a f).extractLsb' 9 3).toNat = op.toNat % 8 := by
  rw [extract_toNat, encByteA_toNat]
  omega

/-- Bits 15..12 = 0110 lead to the `byte-a` map (30_encoding R115). -/
theorem firstWord_encByteA (h : op.toNat / 8 = 6) : firstWord (encByteA op a f) = decodeByteA (encByteA op a f) := by
  have hnibble : ((encByteA op a f).extractLsb' 12 4).toNat = 6 := by
    rw [nibble_toNat, encByteA_toNat]
    omega
  simp only [firstWord, hnibble]

/-- MULWF stands in the group of bits 15..12 = 0000, which it leaves with either access bit (30_encoding R115). -/
theorem firstWord_encByteA_one : firstWord (encByteA 1#7 a f) = .one (.mulwf a f) := by
  have hword : (encByteA 1#7 a f).toNat = 512 * 1 + 256 * a.bit.toNat + f.toNat := encByteA_toNat 1#7 a f
  have hnibble : ((encByteA 1#7 a f).extractLsb' 12 4).toNat = 0 := by
    rw [nibble_toNat]
    omega
  have hselect : ((encByteA 1#7 a f).extractLsb' 8 4).toNat = 2 + a.bit.toNat := by
    rw [extract_toNat]
    omega
  simp only [firstWord, hnibble, decodeGroup0, hselect, encByteA_access, encByteA_file]
  cases a <;> rfl

end byteA

section bit
variable (op : BitVec 4) (b : BitVec 3) (a : Access) (f : BitVec 8)

theorem encBit_nibble : ((encBit op b a f).extractLsb' 12 4).toNat = op.toNat := by
  rw [nibble_toNat, encBit_toNat]
  omega

theorem encBit_bit : bitField (encBit op b a f) = b := by
  apply BitVec.eq_of_toNat_eq
  rw [bitField, extract_toNat, encBit_toNat]
  omega

theorem encBit_access : accessField (encBit op b a f) = a := accessField_eq (by rw [encBit_toNat]; omega)

theorem encBit_file : lowByte (encBit op b a f) = f := lowByte_eq (by rw [encBit_toNat]; omega)

end bit

section low8
variable (op k : BitVec 8)

theorem encLow8_nibble : ((encLow8 op k).extractLsb' 12 4).toNat = op.toNat / 16 := by
  rw [nibble_toNat, encLow8_toNat]
  omega

theorem encLow8_selector : ((encLow8 op k).extractLsb' 8 4).toNat = op.toNat % 16 := by
  rw [extract_toNat, encLow8_toNat]
  omega

theorem encLow8_low : lowByte (encLow8 op k) = k := lowByte_eq (by rw [encLow8_toNat]; omega)

/-- Bits 15..12 = 0000 lead to the group of the literal instructions (30_encoding R115). -/
theorem firstWord_encLow8_group0 (h : op.toNat / 16 = 0) : firstWord (encLow8 op k) = decodeGroup0 (encLow8 op k) := by
  simp only [firstWord, encLow8_nibble, h]

/-- Bits 15..12 = 1110 lead to the group of the branches, CALL, GOTO and LFSR (30_encoding R119). -/
theorem firstWord_encLow8_groupE (h : op.toNat / 16 = 14) : firstWord (encLow8 op k) = decodeGroupE (encLow8 op k) := by
  simp only [firstWord, encLow8_nibble, h]

end low8

section branch11
variable (n : BitVec 11)

theorem encBranch11_field (op : BitVec 5) : (encBranch11 op n).extractLsb' 0 11 = n := by
  apply BitVec.eq_of_toNat_eq
  rw [extract_toNat, encBranch11_toNat]
  omega

/-- Bits 15..12 = 1101 lead to BRA and RCALL, which bit 11 tells apart (30_encoding R115). -/
theorem firstWord_encBranch11 (op : BitVec 5) (h : op.toNat / 2 = 13) :
    firstWord (encBranch11 op n) = .one (if op.getLsbD 0 then .rcall n else .bra n) := by
  have hnibble : ((encBranch11 op n).extractLsb' 12 4).toNat = 13 := by
    rw [nibble_toNat, encBranch11_toNat]
    omega
  have hbit : (encBranch11 op n).getLsbD 11 = op.getLsbD 0 := by
    have hop : (2048 * op.toNat + n.toNat) / 2 ^ 11 % 2 = op.toNat / 2 ^ 0 % 2 := by omega
    rw [getLsbD_eq_decide, getLsbD_eq_decide, encBranch11_toNat, hop]
  simp only [firstWord, hnibble, hbit, encBranch11_field]
  exact (apply_ite FirstWord.one _ _ _).symm

end branch11

section low12
variable (op : BitVec 4) (x : BitVec 12)

theorem encLow12_nibble : ((encLow12 op x).extractLsb' 12 4).toNat = op.toNat := by
  rw [nibble_toNat, encLow12_toNat]
  omega

theorem encLow12_low : lowTwelve (encLow12 op x) = x := by
  apply BitVec.eq_of_toNat_eq
  rw [lowTwelve, extract_toNat, encLow12_toNat]
  omega

end low12

/-! ## Two words -/

/-- The first word of LFSR in numbers: the register number and the high bits of the constant stand in the low byte
(30_encoding R111). -/
theorem encLow8_lfsr_toNat (f : BitVec 2) (k : BitVec 4) :
    (encLow8 0xEE#8 (0#2 ++ (f ++ k))).toNat = 256 * 0xEE + 16 * f.toNat + k.toNat := by
  have hword : (encLow8 0xEE#8 (0#2 ++ (f ++ k))).toNat = 256 * 0xEE + (0#2 ++ (f ++ k) : BitVec 8).toNat :=
    encLow8_toNat _ _
  have hzero : (0#2 ++ (f ++ k) : BitVec 8).toNat = 2 ^ 6 * 0 + (f ++ k).toNat := append_toNat _ _
  have happend := append_toNat f k
  omega

theorem firstWord_lfsr {f : BitVec 2} {k : BitVec 4} (hf : f ≠ 3#2)
    (hw : w.toNat = 256 * 0xEE + 16 * f.toNat + k.toNat) : firstWord w = .two (.lfsr f k) := by
  have hnibble : (w.extractLsb' 12 4).toNat = 14 := by
    rw [nibble_toNat]
    omega
  have hselect : (w.extractLsb' 8 4).toNat = 14 := by
    rw [extract_toNat]
    omega
  have hfixed : w.extractLsb' 6 2 = 0#2 := by
    apply BitVec.eq_of_toNat_eq
    rw [extract_toNat, BitVec.toNat_ofNat]
    omega
  have hregister : w.extractLsb' 4 2 = f := by
    apply BitVec.eq_of_toNat_eq
    rw [extract_toNat]
    omega
  have hconstant : w.extractLsb' 0 4 = k := by
    apply BitVec.eq_of_toNat_eq
    rw [extract_toNat]
    omega
  simp only [firstWord, hnibble, decodeGroupE, hselect, hregister, hconstant]
  exact if_pos ⟨hfixed, hf⟩

/-- The fixed bits of a second word (30_encoding R122). -/
theorem encLow12_fixedBits (op : BitVec 4) (x : BitVec 12) : (encLow12 op x).extractLsb' 12 4 = op :=
  BitVec.eq_of_toNat_eq (encLow12_nibble op x)

theorem secondWord_encLow12_movff (fs fd : BitVec 12) :
    secondWord (.movff fs) (encLow12 0xF#4 fd) = some (.movff fs fd) := by
  unfold secondWord
  rw [if_pos (encLow12_fixedBits _ _)]
  simp only [encLow12_low]

/-- The second word holds the high 12 bits of the target, the first the low 8 (30_encoding R114). -/
theorem secondWord_encLow12_call (fast : Bool) (k : BitVec 20) :
    secondWord (.call fast (k.extractLsb' 0 8)) (encLow12 0xF#4 (k.extractLsb' 8 12)) = some (.call fast k) := by
  unfold secondWord
  rw [if_pos (encLow12_fixedBits _ _)]
  simp only [encLow12_low]
  exact congrArg (fun x => some (Instr.call fast x)) BitVec.extractLsb'_append_extractLsb'

theorem secondWord_encLow12_goto (k : BitVec 20) :
    secondWord (.goto (k.extractLsb' 0 8)) (encLow12 0xF#4 (k.extractLsb' 8 12)) = some (.goto k) := by
  unfold secondWord
  rw [if_pos (encLow12_fixedBits _ _)]
  simp only [encLow12_low]
  exact congrArg (fun x => some (Instr.goto x)) BitVec.extractLsb'_append_extractLsb'

/-- LFSR's second word holds the low 8 bits of the constant, with four more fixed bits (30_encoding R122). -/
theorem secondWord_encLow8_lfsr (f : BitVec 2) (k : BitVec 12) :
    secondWord (.lfsr f (k.extractLsb' 8 4)) (encLow8 0xF0#8 (k.extractLsb' 0 8)) = some (.lfsr f k) := by
  have hfixed : (encLow8 0xF0#8 (k.extractLsb' 0 8)).extractLsb' 12 4 = 0xF#4 :=
    BitVec.eq_of_toNat_eq (encLow8_nibble _ _)
  have hzero : (encLow8 0xF0#8 (k.extractLsb' 0 8)).extractLsb' 8 4 = 0#4 :=
    BitVec.eq_of_toNat_eq (encLow8_selector _ _)
  unfold secondWord
  rw [if_pos hfixed]
  simp only [hzero, if_true, encLow8_low]
  exact congrArg (fun x => some (Instr.lfsr f x)) BitVec.extractLsb'_append_extractLsb'

/-! ## One instruction at the front of words -/

theorem decode_one {w : Word} {i : Instr} (h : firstWord w = .one i) (rest : List Word) :
    decode (w :: rest) = .ok (i, rest) := decode_ok.2 ⟨w, rest, rfl, .inl ⟨h, rfl⟩⟩

theorem decode_two {w w2 : Word} {t : TwoWord} {i : Instr} (h : firstWord w = .two t) (h2 : secondWord t w2 = some i)
    (rest : List Word) : decode (w :: w2 :: rest) = .ok (i, rest) :=
  decode_ok.2 ⟨w, w2 :: rest, rfl, .inr ⟨t, w2, h, rfl, h2⟩⟩

/-- Decoding an encoded instruction gives the instruction and the words after it: by its format, first the map that the
first word leads to, then the entry of the map. -/
theorem decode_encode (i : Instr) (rest : List Word) (h : i.wellFormed = true) :
    decode (encode i ++ rest) = .ok (i, rest) := by
  cases i with
  | decf d a f =>
    refine decode_one ((firstWord_encByteDA_one d a f).trans ?_) rest
    simp only [decodeByteDA, encByteDA_opcode, encByteDA_dest, encByteDA_access, encByteDA_file]
    rfl
  | addwf d a f | addwfc d a f | andwf d a f | comf d a f | decfsz d a f | decfsnz d a f | incf d a f | incfsz d a f
  | infsnz d a f | iorwf d a f | movf d a f | rlcf d a f | rlncf d a f | rrcf d a f | rrncf d a f | subfwb d a f
  | subwf d a f | subwfb d a f | swapf d a f | xorwf d a f =>
    refine decode_one ((firstWord_encByteDA _ d a f (by decide)).trans ?_) rest
    simp only [decodeByteDA, encByteDA_opcode, encByteDA_dest, encByteDA_access, encByteDA_file]
    rfl
  | mulwf a f => exact decode_one (firstWord_encByteA_one a f) rest
  | clrf a f | cpfseq a f | cpfsgt a f | cpfslt a f | movwf a f | negf a f | setf a f | tstfsz a f =>
    refine decode_one ((firstWord_encByteA _ a f (by decide)).trans ?_) rest
    simp only [decodeByteA, encByteA_selector, encByteA_access, encByteA_file]
    rfl
  | bcf b a f | bsf b a f | btfsc b a f | btfss b a f | btg b a f =>
    refine decode_one ?_ rest
    simp only [firstWord, encBit_nibble, encBit_bit, encBit_access, encBit_file]
    rfl
  | addlw k | andlw k | iorlw k | movlb k | movlw k | mullw k | sublw k | xorlw k | retlw k =>
    refine decode_one ((firstWord_encLow8_group0 _ k (by decide)).trans ?_) rest
    simp only [decodeGroup0, encLow8_selector, encLow8_low]
    rfl
  | bc n | bn n | bnc n | bnn n | bnov n | bnz n | bov n | bz n =>
    refine decode_one ((firstWord_encLow8_groupE _ n (by decide)).trans ?_) rest
    simp only [decodeGroupE, encLow8_selector, encLow8_low]
    rfl
  | bra n | rcall n => exact decode_one (firstWord_encBranch11 n _ (by decide)) rest
  | nopF x =>
    refine decode_one ?_ rest
    simp only [firstWord, encLow12_nibble, encLow12_low]
    rfl
  | clrwdt | daw | nop | pop | push | reset | sleep | tblrd | tblrdPostInc | tblrdPostDec | tblrdPreInc | tblwt
  | tblwtPostInc | tblwtPostDec | tblwtPreInc => exact decode_one rfl rest
  | retfie fast | ret fast => cases fast <;> exact decode_one rfl rest
  | movff fs fd =>
    refine decode_two ?_ (secondWord_encLow12_movff fs fd) rest
    simp only [firstWord, encLow12_nibble, encLow12_low]
    rfl
  | call fast k =>
    refine decode_two ?_ (secondWord_encLow12_call fast k) rest
    rw [firstWord_encLow8_groupE _ _ (by cases fast <;> decide)]
    simp only [decodeGroupE, encLow8_selector, encLow8_low]
    cases fast <;> rfl
  | goto k =>
    refine decode_two ?_ (secondWord_encLow12_goto k) rest
    rw [firstWord_encLow8_groupE _ _ (by decide)]
    simp only [decodeGroupE, encLow8_selector, encLow8_low]
    rfl
  | lfsr f k =>
    exact decode_two (firstWord_lfsr (bne_iff_ne.1 h) (encLow8_lfsr_toNat _ _)) (secondWord_encLow8_lfsr f k) rest

end Sys2Proof
end

section
/-! The words of an instruction as bytes of program memory, the less significant byte of a word first (20_memory R78). -/

namespace Sys2Proof

open Machine (extract_toNat)

theorem wordsOfBytes_bytesOfWords (ws : List Word) : wordsOfBytes (bytesOfWords ws) = ws := by
  induction ws with
  | nil => rfl
  | cons w ws ih => exact congrArg₂ List.cons BitVec.extractLsb'_append_extractLsb' ih

theorem bytesOfWords_toNat (ws : List Word) :
    (bytesOfWords ws).map (fun b => b.toNat) = ws.flatMap fun w => [w.toNat % 256, w.toNat / 256] := by
  induction ws with
  | nil => rfl
  | cons w ws ih =>
    have hlow : (w.extractLsb' 0 8).toNat = w.toNat % 256 := (extract_toNat w 0 8).trans (by omega)
    have hhigh : (w.extractLsb' 8 8).toNat = w.toNat / 256 := (extract_toNat w 8 8).trans (by omega)
    exact congrArg₂ List.cons hlow (congrArg₂ List.cons hhigh ih)

end Sys2Proof
end

section
namespace Sys2Proof

/-- Settles O3: the bytes of an instruction's words are read as these words, which decode to the instruction. -/
theorem decodeBytesLittleEndian : Obligations.DecodeBytesLittleEndian := by
  intro i h
  refine ⟨decodeBytes_ok.2 ⟨[], ?_⟩, bytesOfWords_toNat _⟩
  rw [wordsOfBytes_bytesOfWords]
  simpa using decode_encode i [] h

end Sys2Proof
end

section
/-! No bit of a first word is dropped: the fields that the decoder reads, put into the format of the instruction, make up
the word again (30_encoding R101 to R124). -/

namespace Sys2Proof

open Machine (append_toNat extract_toNat)

variable {w : Word}

/-! ## The fields of a word, in numbers -/

theorem lowByte_toNat (w : Word) : (lowByte w).toNat = w.toNat % 256 := (extract_toNat w 0 8).trans (by omega)

theorem lowTwelve_toNat (w : Word) : (lowTwelve w).toNat = w.toNat % 4096 := (extract_toNat w 0 12).trans (by omega)

theorem bitField_toNat (w : Word) : (bitField w).toNat = w.toNat / 512 % 8 := extract_toNat w 9 3

theorem selector_toNat (w : Word) : (w.extractLsb' 8 4).toNat = w.toNat / 256 % 16 := extract_toNat w 8 4

theorem accessField_toNat (w : Word) : (accessField w).bit.toNat = w.toNat / 256 % 2 := by
  unfold accessField
  rw [getLsbD_eq_decide]
  split
  · next h => exact (of_decide_eq_true h).symm
  · next h => exact (Nat.mod_two_ne_one.1 (mt decide_eq_true h)).symm

theorem destField_toNat (w : Word) : (destField w).bit.toNat = w.toNat / 512 % 2 := by
  unfold destField
  rw [getLsbD_eq_decide]
  split
  · next h => exact (of_decide_eq_true h).symm
  · next h => exact (Nat.mod_two_ne_one.1 (mt decide_eq_true h)).symm

/-- The value of a field, in numbers. -/
theorem extract_eq_iff {m n : Nat} (x : BitVec m) (i : Nat) (v : BitVec n) :
    x.extractLsb' i n = v ↔ x.toNat / 2 ^ i % 2 ^ n = v.toNat := by
  rw [← BitVec.toNat_inj, extract_toNat]

/-- The operand bits that LFSR's first word needs: bits 7..6 are 00, the register number is not 3 (30_encoding R119). -/
theorem lfsrFields_iff (w : Word) : (w.extractLsb' 6 2 = 0#2 ∧ w.extractLsb' 4 2 ≠ 3#2) ↔
    (w.toNat / 64 % 4 = 0 ∧ w.toNat / 16 % 4 ≠ 3) :=
  and_congr (extract_eq_iff w 6 0#2) (not_congr (extract_eq_iff w 4 3#2))

/-! ## Each format put together from the fields of a word -/

theorem encByteDA_fields {op : BitVec 6} (h : (w.extractLsb' 10 6).toNat = op.toNat) :
    encByteDA op (destField w) (accessField w) (lowByte w) = w := by
  rw [extract_toNat] at h
  apply BitVec.eq_of_toNat_eq
  rw [encByteDA_toNat, destField_toNat, accessField_toNat, lowByte_toNat]
  omega

theorem encByteA_fields {op : BitVec 7} (h : w.toNat / 512 = op.toNat) :
    encByteA op (accessField w) (lowByte w) = w := by
  apply BitVec.eq_of_toNat_eq
  rw [encByteA_toNat, accessField_toNat, lowByte_toNat]
  omega

theorem encBit_fields {op : BitVec 4} (h : (w.extractLsb' 12 4).toNat = op.toNat) :
    encBit op (bitField w) (accessField w) (lowByte w) = w := by
  rw [nibble_toNat] at h
  apply BitVec.eq_of_toNat_eq
  rw [encBit_toNat, bitField_toNat, accessField_toNat, lowByte_toNat]
  omega

theorem encLow8_fields {op : BitVec 8} (h : w.toNat / 256 = op.toNat) : encLow8 op (lowByte w) = w := by
  apply BitVec.eq_of_toNat_eq
  rw [encLow8_toNat, lowByte_toNat]
  omega

theorem encLow12_fields {op : BitVec 4} (h : (w.extractLsb' 12 4).toNat = op.toNat) :
    encLow12 op (lowTwelve w) = w := by
  rw [nibble_toNat] at h
  apply BitVec.eq_of_toNat_eq
  rw [encLow12_toNat, lowTwelve_toNat]
  omega

theorem encBranch11_fields {op : BitVec 5} (h : w.toNat / 2048 = op.toNat) :
    encBranch11 op (w.extractLsb' 0 11) = w := by
  apply BitVec.eq_of_toNat_eq
  rw [encBranch11_toNat, extract_toNat]
  omega

theorem encLow8_lfsr_fields (h : w.toNat / 64 = 0x3B8) :
    encLow8 0xEE#8 (0#2 ++ (w.extractLsb' 4 2 ++ w.extractLsb' 0 4)) = w := by
  apply BitVec.eq_of_toNat_eq
  rw [encLow8_lfsr_toNat, extract_toNat, extract_toNat]
  omega

/-- Bits 15..12 and 11..8 make up an 8-bit opcode. -/
theorem opcode8_of_selectors {op : BitVec 8} (hnibble : (w.extractLsb' 12 4).toNat = op.toNat / 16)
    (hselect : (w.extractLsb' 8 4).toNat = op.toNat % 16) : w.toNat / 256 = op.toNat := by
  rw [nibble_toNat] at hnibble
  rw [selector_toNat] at hselect
  omega

/-! ## Every map keeps the bits of its word -/

/-- The first word that a two-word instruction's operand bits stand in (30_encoding R103, R106, R107, R111). -/
def TwoWord.word : TwoWord → Word
  | .movff fs => encLow12 0xC#4 fs
  | .call fast k => encLow8 (0b1110110#7 ++ BitVec.ofBool fast) k
  | .goto k => encLow8 0xEF#8 k
  | .lfsr f k => encLow8 0xEE#8 (0#2 ++ (f ++ k))

/-- What a first word decides has the word as its encoding, or as the first word of its encoding. -/
def FirstWord.Encodes (w : Word) : FirstWord → Prop
  | .one i => encode i = [w]
  | .two t => t.word = w
  | .reserved => True

theorem decodeByteDA_encodes (w : Word) : (decodeByteDA w).Encodes w := by
  unfold decodeByteDA
  split
  case h_22 => trivial
  all_goals next h => exact List.singleton_inj.2 (encByteDA_fields h)

theorem decodeByteA_encodes (hnibble : (w.extractLsb' 12 4).toNat = 6) : (decodeByteA w).Encodes w := by
  have hop {n : Nat} (h : (w.extractLsb' 9 3).toNat = n) : w.toNat / 512 = 48 + n := by
    rw [nibble_toNat] at hnibble
    rw [extract_toNat] at h
    omega
  unfold decodeByteA
  split
  case h_8 =>
    simp only [imp_false] at *
    have hlt := (w.extractLsb' 9 3).isLt
    exact List.singleton_inj.2 (encByteA_fields (hop (n := 7) (by omega)))
  all_goals next h => exact List.singleton_inj.2 (encByteA_fields (hop h))

/-- An inherent word is its low byte, the high byte being 0. -/
theorem decodeInherent_encodes (hhigh : w.toNat / 256 = 0) : (decodeInherent w).Encodes w := by
  have hword {v : Word} (h : (lowByte w).toNat = v.toNat) : v = w := by
    rw [lowByte_toNat] at h
    exact BitVec.eq_of_toNat_eq (by omega)
  unfold decodeInherent
  split
  case h_20 => trivial
  all_goals next h => exact List.singleton_inj.2 (hword h)

theorem decodeGroup0_encodes (hnibble : (w.extractLsb' 12 4).toNat = 0) : (decodeGroup0 w).Encodes w := by
  have hmulwf (h : (w.extractLsb' 8 4).toNat / 2 = 1) : encByteA 1#7 (accessField w) (lowByte w) = w := by
    rw [nibble_toNat] at hnibble
    rw [selector_toNat] at h
    exact encByteA_fields (show w.toNat / 512 = 1 by omega)
  unfold decodeGroup0
  split
  case h_1 h => exact decodeInherent_encodes (opcode8_of_selectors (op := 0#8) hnibble h)
  case h_3 h | h_4 h => exact List.singleton_inj.2 (hmulwf (congrArg (· / 2) h))
  case h_13 => exact decodeByteDA_encodes w
  all_goals next h => exact List.singleton_inj.2 (encLow8_fields (opcode8_of_selectors hnibble h))

theorem decodeGroupE_encodes (hnibble : (w.extractLsb' 12 4).toNat = 14) : (decodeGroupE w).Encodes w := by
  have hlow8 {op : BitVec 8} (hop : op.toNat / 16 = 14) (h : (w.extractLsb' 8 4).toNat = op.toNat % 16) :
      encLow8 op (lowByte w) = w := encLow8_fields (opcode8_of_selectors (hnibble.trans hop.symm) h)
  unfold decodeGroupE
  split
  case h_9 h | h_10 h | h_12 h => exact hlow8 (by decide) h
  case h_11 h =>
    split
    · next hfields =>
      obtain ⟨hfixed, -⟩ := (lfsrFields_iff w).1 hfields
      have hop : w.toNat / 256 = 0xEE := opcode8_of_selectors (op := 0xEE#8) hnibble h
      exact encLow8_lfsr_fields (by omega)
    · trivial
  case h_13 => trivial
  all_goals next h => exact List.singleton_inj.2 (hlow8 (by decide) h)

theorem firstWord_encodes (w : Word) : (firstWord w).Encodes w := by
  unfold firstWord
  split
  case h_1 h => exact decodeGroup0_encodes h
  case h_2 h => exact decodeByteA_encodes h
  case h_8 h => exact encLow12_fields h
  case h_9 h =>
    rw [nibble_toNat] at h
    rw [getLsbD_eq_decide]
    split
    · next hbit =>
      rw [decide_eq_true_eq] at hbit
      exact List.singleton_inj.2 (encBranch11_fields (show w.toNat / 2048 = 27 by omega))
    · next hbit =>
      rw [decide_eq_true_eq] at hbit
      exact List.singleton_inj.2 (encBranch11_fields (show w.toNat / 2048 = 26 by omega))
  case h_10 h => exact decodeGroupE_encodes h
  case h_11 h => exact List.singleton_inj.2 (encLow12_fields h)
  case h_12 => exact decodeByteDA_encodes w
  all_goals next h => exact List.singleton_inj.2 (encBit_fields h)

/-! ## The second word -/

/-- The two words of a completed instruction are its encoding: a split constant is put together from the operand bits of
the first word and those of the second (30_encoding R114). -/
theorem encode_of_secondWord {t : TwoWord} {w2 : Word} {i : Instr} (h : secondWord t w2 = some i) :
    encode i = [t.word, w2] := by
  unfold secondWord at h
  split at h
  · next hfixed =>
    have hnibble : (w2.extractLsb' 12 4).toNat = 15 := congrArg BitVec.toNat hfixed
    have hlow12 : encLow12 0xF#4 (lowTwelve w2) = w2 := encLow12_fields hnibble
    cases t with
    | movff fs =>
      cases h
      simp only [encode, TwoWord.word, hlow12]
    | call fast k =>
      cases h
      simp only [encode, TwoWord.word, BitVec.extractLsb'_append_eq_right, BitVec.extractLsb'_append_eq_left, hlow12]
    | goto k =>
      cases h
      simp only [encode, TwoWord.word, BitVec.extractLsb'_append_eq_right, BitVec.extractLsb'_append_eq_left, hlow12]
    | lfsr f k =>
      simp only [Option.ite_none_right_eq_some, Option.some.injEq] at h
      obtain ⟨hzero, rfl⟩ := h
      have hselect : (w2.extractLsb' 8 4).toNat = 0 := congrArg BitVec.toNat hzero
      have hlow8 : encLow8 0xF0#8 (lowByte w2) = w2 := encLow8_fields (opcode8_of_selectors hnibble hselect)
      simp only [encode, TwoWord.word, BitVec.extractLsb'_append_eq_right, BitVec.extractLsb'_append_eq_left, hlow8]
  · cases h

/-- The words that decode, up to the rest, are the encoding of what they decode to. -/
theorem encode_of_decode {ws rest : List Word} {i : Instr} (h : decode ws = .ok (i, rest)) : encode i ++ rest = ws := by
  obtain ⟨w, ws', rfl, hcases⟩ := decode_ok.1 h
  have hw := firstWord_encodes w
  obtain ⟨hf, rfl⟩ | ⟨t, w2, hf, rfl, h2⟩ := hcases <;> rw [hf] at hw
  · exact congrArg (· ++ ws') hw
  · rw [encode_of_secondWord h2, show t.word = w from hw]
    rfl

end Sys2Proof
end

section
namespace Sys2Proof

/-- Settles O1: format by format, in `decode_encode`. -/
theorem decodeEncode : Obligations.DecodeEncode := decode_encode

/-- Settles O2: each map's result is well formed, and keeps every bit of its word. -/
theorem encodeDecode : Obligations.EncodeDecode := fun _ _ _ h => ⟨decode_wellFormed h, encode_of_decode h⟩

end Sys2Proof
end

section
/-! Which first words are reserved, begin a two-word instruction, and which second words complete one (30_encoding R110,
R120, R122). -/

namespace Sys2Proof

open Machine (extract_toNat)

variable {w : Word}

/-! ## Reserved words -/

/-- The `byte-d-a` map has an entry for DECF, and one for each opcode from 4 to 23 (R115, R117). -/
theorem decodeByteDA_reserved_iff (w : Word) :
    decodeByteDA w = .reserved ↔ (w.toNat / 1024 < 4 ∧ w.toNat / 1024 ≠ 1) ∨ 24 ≤ w.toNat / 1024 := by
  have hop : (w.extractLsb' 10 6).toNat = w.toNat / 1024 := (extract_toNat w 10 6).trans (by omega)
  unfold decodeByteDA
  split
  case h_22 =>
    refine iff_of_true rfl ?_
    simp only [imp_false] at *
    omega
  all_goals exact iff_of_false nofun (by omega)

theorem decodeByteA_ne_reserved (w : Word) : decodeByteA w ≠ .reserved := by
  unfold decodeByteA
  split <;> exact nofun

/-- The inherent words that are not in the table of R116. -/
theorem decodeInherent_reserved_iff (w : Word) :
    decodeInherent w = .reserved ↔
      (1 ≤ (lowByte w).toNat ∧ (lowByte w).toNat ≤ 2) ∨ (0x14 ≤ (lowByte w).toNat ∧ (lowByte w).toNat ≤ 0xFE) := by
  unfold decodeInherent
  split
  case h_20 =>
    refine iff_of_true rfl ?_
    simp only [imp_false] at *
    have hlt := (lowByte w).isLt
    omega
  all_goals exact iff_of_false nofun (by omega)

theorem decodeGroup0_reserved_iff (hnibble : w.toNat / 4096 = 0) :
    decodeGroup0 w = .reserved ↔
      (1 ≤ w.toNat ∧ w.toNat ≤ 2) ∨ (0x14 ≤ w.toNat ∧ w.toNat ≤ 0xFE) := by
  have hselect := selector_toNat w
  unfold decodeGroup0
  split
  case h_1 =>
    rw [decodeInherent_reserved_iff, lowByte_toNat]
    omega
  case h_13 =>
    simp only [imp_false] at *
    rw [decodeByteDA_reserved_iff]
    omega
  all_goals exact iff_of_false nofun (by omega)

/-- In the group of bits 15..12 = 1110 four opcodes are free, and the LFSR words with bits 7..6 set or register number 3
(R119). -/
theorem decodeGroupE_reserved_iff (hnibble : w.toNat / 4096 = 14) :
    decodeGroupE w = .reserved ↔
      (0xE800 ≤ w.toNat ∧ w.toNat ≤ 0xEBFF) ∨ (0xEE30 ≤ w.toNat ∧ w.toNat ≤ 0xEEFF) := by
  have hselect := selector_toNat w
  unfold decodeGroupE
  split
  case h_11 =>
    split
    · next hfields =>
      rw [lfsrFields_iff] at hfields
      exact iff_of_false nofun (by omega)
    · next hfields =>
      rw [lfsrFields_iff] at hfields
      exact iff_of_true rfl (by omega)
  case h_13 =>
    refine iff_of_true rfl ?_
    simp only [imp_false] at *
    omega
  all_goals exact iff_of_false nofun (by omega)

/-! ## First words of two-word instructions -/

theorem isTwoWord_iff : isTwoWord w = true ↔ ∃ t, firstWord w = .two t := by
  unfold isTwoWord
  cases firstWord w <;> simp

/-- The numbers of the first words, by the formats of R103, R106, R107, R111. -/
def TwoWordRanges (n : Nat) : Prop :=
  (0xC000 ≤ n ∧ n ≤ 0xCFFF) ∨ (0xEC00 ≤ n ∧ n ≤ 0xEDFF) ∨ (0xEF00 ≤ n ∧ n ≤ 0xEFFF) ∨ (0xEE00 ≤ n ∧ n ≤ 0xEE2F)

theorem TwoWord.word_ranges {t : TwoWord} (h : t.WellFormed) : TwoWordRanges t.word.toNat := by
  unfold TwoWordRanges
  cases t with
  | movff fs =>
    have hword : (TwoWord.movff fs).word.toNat = 4096 * 12 + fs.toNat := encLow12_toNat 0xC#4 fs
    omega
  | call fast k =>
    have hword : (TwoWord.call fast k).word.toNat = 256 * (0xEC + fast.toNat) + k.toNat := by
      cases fast <;> exact encLow8_toNat _ k
    have hfast := fast.toNat_le
    omega
  | goto k =>
    have hword : (TwoWord.goto k).word.toNat = 256 * 0xEF + k.toNat := encLow8_toNat 0xEF#8 k
    omega
  | lfsr f k =>
    have hword : (TwoWord.lfsr f k).word.toNat = 256 * 0xEE + 16 * f.toNat + k.toNat := encLow8_lfsr_toNat f k
    have hregister : f.toNat ≠ 3 := fun hf => h (BitVec.eq_of_toNat_eq hf)
    omega

theorem firstWord_movff (h : w.toNat / 4096 = 12) : firstWord w = .two (.movff (lowTwelve w)) := by
  simp only [firstWord, nibble_toNat, h]

theorem firstWord_groupE (h : w.toNat / 4096 = 14) : firstWord w = decodeGroupE w := by
  simp only [firstWord, nibble_toNat, h]

theorem firstWord_two_of_ranges (h : TwoWordRanges w.toNat) : ∃ t, firstWord w = .two t := by
  obtain hmovff | hcall | hgoto | hlfsr := h
  · exact ⟨_, firstWord_movff (by omega)⟩
  · have hselect : w.toNat / 256 % 16 = 12 ∨ w.toNat / 256 % 16 = 13 := by omega
    rw [firstWord_groupE (by omega)]
    obtain h | h := hselect <;> simp only [decodeGroupE, selector_toNat, h] <;> exact ⟨_, rfl⟩
  · have hselect : w.toNat / 256 % 16 = 15 := by omega
    rw [firstWord_groupE (by omega)]
    simp only [decodeGroupE, selector_toNat, hselect]
    exact ⟨_, rfl⟩
  · obtain ⟨-, hregister⟩ := (lfsrFields_iff w).2 ⟨by omega, by omega⟩
    refine ⟨_, firstWord_lfsr (k := w.extractLsb' 0 4) hregister ?_⟩
    rw [extract_toNat, extract_toNat]
    omega

/-! ## Second words -/

/-- The fixed bits of a second word, in numbers (R122). -/
theorem secondWord_isSome_iff (t : TwoWord) (w : Word) : (secondWord t w).isSome = true ↔
    (w.toNat / 4096 = 15 ∧ ∀ f k, t = .lfsr f k → w.toNat / 256 % 16 = 0) := by
  have hnibble : w.extractLsb' 12 4 = 0xF#4 ↔ w.toNat / 4096 = 15 := by
    rw [← BitVec.toNat_inj, nibble_toNat]
    rfl
  have hzero : w.extractLsb' 8 4 = 0#4 ↔ w.toNat / 256 % 16 = 0 := extract_eq_iff w 8 0#4
  unfold secondWord
  split
  · next h =>
    rw [hnibble] at h
    cases t <;> simp [h, hzero]
  · next h =>
    rw [hnibble] at h
    simp [h]

end Sys2Proof
end

section
namespace Sys2Proof

/-- Settles O4: the reserved words stand in the two groups with free entries, and no other map has one. -/
theorem reservedWordSet : Obligations.ReservedWordSet := by
  intro w
  have hnibble := nibble_toNat w
  unfold firstWord
  split
  case h_1 =>
    rw [decodeGroup0_reserved_iff (by omega)]
    omega
  case h_2 => exact iff_of_false (decodeByteA_ne_reserved w) (by omega)
  case h_9 => split <;> exact iff_of_false nofun (by omega)
  case h_10 =>
    rw [decodeGroupE_reserved_iff (by omega)]
    omega
  case h_12 =>
    simp only [imp_false] at *
    rw [decodeByteDA_reserved_iff]
    omega
  all_goals exact iff_of_false nofun (by omega)

/-- Settles O5: a first word is the word of its operand bits, which lies in the range of its format; and each range leads
to its entry. -/
theorem twoWordSet : Obligations.TwoWordSet := by
  intro w
  refine isTwoWord_iff.trans ⟨fun ⟨t, ht⟩ => ?_, firstWord_two_of_ranges⟩
  have hwf := firstWord_wellFormed w
  have hword := firstWord_encodes w
  rw [ht] at hwf hword
  rw [← show t.word = w from hword]
  exact TwoWord.word_ranges hwf

/-- Settles O6: the fixed bits are two fields of the word. -/
theorem secondWordPrefix : Obligations.SecondWordPrefix := secondWord_isSome_iff

end Sys2Proof
end

section
/-! The fetch where the words at an address are no instruction: the checks of 60_exceptions R282. -/

namespace Sys2Proof.Machine

variable {s : State} {a : ProgAddr} {w w2 : Word} {t : TwoWord}

theorem fetchInstr_of_reserved (hw : fetchWord s a = .ok w) (hf : firstWord w = .reserved) :
    fetchInstr s a = .error (.reservedInstruction a w) := by
  simp only [fetchInstr, hw, hf]

theorem fetchInstr_of_malformed (hw : fetchWord s a = .ok w) (hf : firstWord w = .two t)
    (hw2 : fetchWord s (a + 2#21) = .ok w2) (h2 : secondWord t w2 = none) :
    fetchInstr s a = .error (.malformedSecondWord a w w2) := by
  simp only [fetchInstr, hw, hf, hw2, h2]

theorem fetchInstr_of_second_error {e : Fault} (hw : fetchWord s a = .ok w) (hf : firstWord w = .two t)
    (hw2 : fetchWord s (a + 2#21) = .error e) : fetchInstr s a = .error e := by
  simp only [fetchInstr, hw, hf, hw2]

/-- The word 0, which absent program memory reads as, has no fixed bits of a second word. -/
theorem secondWord_zero (t : TwoWord) : secondWord t 0#16 = none := by
  rw [← Option.not_isSome_iff_eq_none, secondWord_isSome_iff]
  exact fun h => absurd h.1 (by decide)

end Sys2Proof.Machine
end

section
namespace Sys2Proof.Machine

/-- Settles O10: each clause is one check of the fetch, whose fault is the step. -/
theorem stepStopsOnNoInstruction : Obligations.StepStopsOnNoInstruction := by
  rintro s _ w2 hin hawake hpc rfl
  have hw := fetchWord_of_lt hpc
  have hstep {e : Fault} (h : fetchInstr s s.pc = .error e) : step s = .fault e :=
    (step_of_inputs_nil hin).trans (runCore_of_fetch_error hawake h)
  refine ⟨fun hf => hstep (fetchInstr_of_reserved hw hf), ?_, ?_, ?_⟩
  · rintro t hf hpresent rfl h2
    have hw2 := fetchWord_of_lt hpresent
    rw [BitVec.add_assoc] at hw2
    exact hstep (fetchInstr_of_malformed hw hf hw2 h2)
  · intro t hf habsent hu
    exact hstep (fetchInstr_of_second_error hw hf (fetchWord_absent_fault habsent hu))
  · intro t hf habsent hu
    exact hstep (fetchInstr_of_malformed hw hf (fetchWord_absent_readZero habsent hu) (secondWord_zero t))

end Sys2Proof.Machine
end

section
namespace Sys2Proof

/-- Settles O7: the decoder, run on each sample. -/
theorem sampleWords : Obligations.SampleWords :=
  ⟨rfl, rfl, rfl, rfl, rfl, rfl, rfl, rfl, rfl, rfl, rfl, rfl, rfl⟩

end Sys2Proof
end

section
/-! File operands: what locating, reading and writing one leaves alone, with the exact frame of a read and the one byte
of data memory that a write can change. -/

namespace Sys2Proof.Machine

/-! ## Data memory -/

/-- A write leaves every other address as it was, in a list of any form. -/
theorem Memory.read_write_of_ne (m : Memory) {a k : Nat} (h : k ≠ a) (v : Byte) :
    (m.write a v).read k = m.read k := by
  induction m with
  | nil =>
    unfold Memory.write
    split
    · rfl
    · exact if_neg h.symm
  | cons c m ih =>
    obtain ⟨b, u⟩ := c
    unfold Memory.write
    split
    · split
      · rfl
      · exact if_neg h.symm
    · split
      · next hab =>
        subst hab
        rw [Memory.read_cons, if_neg h.symm]
        split
        · rfl
        · exact if_neg h.symm
      · rw [Memory.read_cons, Memory.read_cons, ih]

variable {s s1 t : State} {d : Dest} {a : Access} {f : BitVec 8} {c : Cell} {l : Loc} {i : DataAddr} {v : Byte}

theorem locate_data (h : locate s i = .ok (l, t)) : t.data = s.data := by
  obtain rfl | ⟨n, x, rfl⟩ := locate_frame h
  · rfl
  · exact State.setFsr_data s n x

theorem readCell_data (s : State) (c : Cell) : (readCell s c).2.data = s.data := by rw [readCell_frame]

/-- A write to a place changes no byte of data memory but the one at the place. -/
theorem writeCell_data_read {k : Nat} (hk : ∀ ea, c = .ram ea → k ≠ ea.toNat) (s : State) (v : Byte) :
    (writeCell s c v).data.read k = s.data.read k := by
  cases c with
  | ram ea => exact Memory.read_write_of_ne s.data (hk ea rfl) v
  | sfr r => exact congrArg (Memory.read · k) (keepsHidden_writeSfr s r v).data
  | void => rfl

/-- A result changes no byte of data memory but the one at its place, and that only with d = 1. -/
theorem writeDest_data_read {k : Nat} (hk : ∀ ea, d = .f → c = .ram ea → k ≠ ea.toNat) (s : State) (r : Byte) :
    (writeDest s d c r).data.read k = s.data.read k := by
  cases d with
  | w => rfl
  | f => exact writeCell_data_read (fun ea => hk ea rfl) s r

/-! ## The model's own counters -/

theorem writeCell_counters (s : State) (c : Cell) (v : Byte) :
    (writeCell s c v).cycles = s.cycles ∧ (writeCell s c v).freeIdx = s.freeIdx := by
  cases c with
  | sfr r => cases r <;> simp [writeCell, writeSfr]
  | _ => exact ⟨rfl, rfl⟩

theorem writeDest_counters (s : State) (d : Dest) (c : Cell) (r : Byte) :
    (writeDest s d c r).cycles = s.cycles ∧ (writeDest s d c r).freeIdx = s.freeIdx := by
  cases d with
  | w => exact ⟨rfl, rfl⟩
  | f => exact writeCell_counters s c r

/-! ## Reading the operand -/

theorem fetchOperand_ram (h : InRam s (effectiveAddr s a f)) : fetchOperand s a f =
    .ok (⟨.ram (effectiveAddr s a f), none⟩, s.data.read (effectiveAddr s a f).toNat, s.advance 2#21) :=
  fetchOperand_ok.2 ⟨_, locate_ram (s := s.advance 2#21) h, rfl, rfl⟩

/-- Reading an operand moves the pc on and changes nothing else but an FSR (93 G3), the latches (G4) and the counter of
free values. -/
theorem fetchOperand_frame (h : fetchOperand s a f = .ok (l, v, t)) :
    { t with fsr0 := s.fsr0, fsr1 := s.fsr1, fsr2 := s.fsr2, pclath := s.pclath, pclatu := s.pclatu,
             freeIdx := s.freeIdx } = s.advance 2#21 := by
  obtain ⟨s1, hloc, -, rfl⟩ := fetchOperand_ok.1 h
  rw [readCell_frame s1 l.cell]
  obtain rfl | ⟨n, x, rfl⟩ := locate_frame hloc
  · rfl
  · cases n <;> rfl

theorem fetchOperand_data (h : fetchOperand s a f = .ok (l, v, t)) : t.data = s.data :=
  (congrArg State.data (fetchOperand_frame h) :)

theorem fetchOperand_cycles (h : fetchOperand s a f = .ok (l, v, t)) : t.cycles = s.cycles :=
  (congrArg State.cycles (fetchOperand_frame h) :)

/-- An operand in memory lies in memory that exists and gives the byte there. -/
theorem fetchOperand_of_ram {ea : DataAddr} (h : fetchOperand s a f = .ok (l, v, t)) (hc : l.cell = .ram ea) :
    v = s.data.read ea.toNat ∧ InRam s ea := by
  obtain ⟨s1, hloc, rfl, -⟩ := fetchOperand_ok.1 h
  have hdata : s1.data = s.data := (locate_data hloc).trans (State.advance_data s 2#21)
  refine ⟨?_, (locate_cell hloc).2 ea hc⟩
  rw [hc, ← hdata]
  rfl

theorem fetchOperand_of_void (h : fetchOperand s a f = .ok (l, v, t)) (hc : l.cell = .void) : v = 0x00#8 := by
  obtain ⟨s1, -, rfl, -⟩ := fetchOperand_ok.1 h
  rw [hc]
  rfl

end Sys2Proof.Machine
end

section
namespace Sys2Proof.Machine

/-- Settles O35: the frame of a read, and the byte by what stands at the place. -/
theorem operandRead : Obligations.OperandRead := fun _ _ _ =>
  ⟨fetchOperand_ram, fun _ _ _ h => ⟨fetchOperand_frame h, fun _ => fetchOperand_of_ram h, fetchOperand_of_void h⟩⟩

end Sys2Proof.Machine
end

section
/-! The shapes of instruction with a file operand against the terms of the statements: what an instruction of each shape
puts, stores, tests and counts, once for every operation and condition. -/

namespace Sys2Proof.Machine

variable {i : Instr} {s s1 t : State} {d : Dest} {a : Access} {f : BitVec 8} {c : Cell} {l : Loc} {v : Byte} {e : Fault}

/-! ## The outcome of each shape from that of its access -/

theorem modifyFile_error {op : Byte → Byte × (Status → Status)} (h : fetchOperand s a f = .error e) :
    modifyFile d a f op s = .fault e := by
  unfold modifyFile
  rw [h]

theorem storeFile_error {flags : Status → Status} (h : locate (s.advance 2#21) (effectiveAddr s a f) = .error e) :
    storeFile a f v flags s = .fault e := by
  unfold storeFile
  rw [h]

theorem useFile_error {k : Byte → State → State} (h : fetchOperand s a f = .error e) :
    useFile a f k s = .fault e := by
  unfold useFile
  rw [h]

section
variable {cond : Byte → Bool}

theorem testFile_error (h : fetchOperand s a f = .error e) : testFile a f cond s = .fault e := by
  unfold testFile
  rw [h]

theorem testFile_skip_error (h : fetchOperand s a f = .ok (l, v, s1)) (hc : cond v = true)
    (hskip : skipWords s = .error e) : testFile a f cond s = .fault e := by
  unfold testFile
  simp only [h, hc, hskip, if_true]

variable {op : Byte → Byte}

theorem countFile_error (h : fetchOperand s a f = .error e) : countFile d a f op cond s = .fault e := by
  unfold countFile
  rw [h]

/-- The checks of the skip come before the write (40_byte_oriented R142). -/
theorem countFile_skip_error (h : fetchOperand s a f = .ok (l, v, s1)) (hc : cond (op v) = true)
    (hskip : skipWords s = .error e) : countFile d a f op cond s = .fault e := by
  unfold countFile
  simp only [h, hc, hskip, if_true]

end

/-! ## Skips -/

/-- The instruction after a skip has a length. -/
theorem skipWords_pos {n : Nat} (h : skipWords s = .ok n) : 0 < n := by
  obtain ⟨i, hi⟩ := skipWords_ok.1 h
  obtain ⟨w, -, ⟨-, rfl⟩ | ⟨x, w2, -, -, -, rfl⟩⟩ := fetchInstr_ok.1 hi
  · exact Nat.one_pos
  · exact Nat.two_pos

/-- The address after a skip, in bytes from the skip instruction on. -/
theorem afterSkip_eq (pc : ProgAddr) (n : Nat) : afterSkip pc n = pc + BitVec.ofNat 21 (2 + 2 * n) := by
  rw [afterSkip, BitVec.add_assoc, BitVec.ofNat_add]

theorem writesPcl_iff : writesPcl d c = true ↔ d = .f ∧ c = .sfr .pcl := by simp [writesPcl]

/-- A skip goes past its words unless PCL was written. -/
theorem skipOver_of_not_pcl (h : ¬ (d = .f ∧ c = .sfr .pcl)) (pc : ProgAddr) (n : Nat) (s : State) :
    skipOver d c pc n s = { s with pc := afterSkip pc n }.tick (1 + n) :=
  if_neg (mt writesPcl_iff.1 h)

/-! ## What the shapes put, store, test and count -/

theorem putsResult_of_modifyFile {op : Byte → Byte × (Status → Status)} {result : Byte → Status → Byte → Status → Prop}
    (hexec : exec i s = modifyFile d a f op s) (hop : ∀ v st, result v st (op v).1 ((op v).2 st)) :
    PutsResult i s d a f result := by
  unfold PutsResult
  rw [hexec]
  refine ⟨fun l v s1 h => ?_, fun h => ?_, fun e h => modifyFile_error h⟩
  · refine ⟨_, _, _, hop v _, rfl, modifyFile_next.2 ⟨l, v, s1, h, rfl⟩, fun k hk => ?_⟩
    rw [State.tick_data, Loc.settle_data, ← fetchOperand_data h]
    exact writeDest_data_read hk s1 _
  · refine ⟨_, _, hop _ _, modifyFile_next.2 ⟨_, _, _, fetchOperand_ram h, ?_⟩⟩
    cases d <;> rfl

theorem storesByte_of_storeFile {flags : Status → Status} (hexec : exec i s = storeFile a f v flags s) :
    StoresByte i s a f v flags := by
  unfold StoresByte
  rw [hexec]
  refine ⟨fun l s1 h => ?_, fun h => ?_, fun e h => storeFile_error h⟩
  · refine ⟨_, rfl, storeFile_next.2 ⟨l, s1, h, rfl⟩, fun k hk => ?_⟩
    rw [State.tick_data, Loc.settle_data, ← State.advance_data s 2#21, ← locate_data h]
    exact writeCell_data_read hk s1 v
  · exact storeFile_next.2 ⟨_, _, locate_ram (s := s.advance 2#21) h, rfl⟩

theorem testsAndSkips_of_testFile {b : Byte → Bool} {cond : Byte → Prop} (hexec : exec i s = testFile a f b s)
    (hb : ∀ v, b v = true ↔ cond v) : TestsAndSkips i s a f cond := by
  have hfalse {v : Byte} (h : ¬ cond v) : b v = false := by rwa [← hb, Bool.not_eq_true] at h
  unfold TestsAndSkips
  rw [hexec]
  refine ⟨fun l v s1 h => ⟨?_, fun hc => ?_, fun n hc hn => ?_, fun e hc he => ?_⟩,
    fun h => ⟨fun hc => ?_, fun n hc hn => ?_⟩, fun e h => testFile_error h⟩
  · exact (Loc.settle_data l s1).trans (fetchOperand_data h)
  · exact testFile_next.2 ⟨l, v, s1, h, .inl ⟨hfalse hc, rfl⟩⟩
  · exact testFile_next.2 ⟨l, v, s1, h, .inr ⟨n, (hb v).2 hc, hn, by rw [afterSkip_eq]⟩⟩
  · exact testFile_skip_error h ((hb v).2 hc) he
  · exact testFile_next.2 ⟨_, _, _, fetchOperand_ram h, .inl ⟨hfalse hc, rfl⟩⟩
  · refine testFile_next.2 ⟨_, _, _, fetchOperand_ram h, .inr ⟨n, (hb _).2 hc, hn, ?_⟩⟩
    rw [afterSkip_eq, Nat.add_assoc]
    rfl

/-- After the write and the step of the FSR: the counters as they were, and data memory but for the place. -/
theorem settle_writeDest_frame (h : fetchOperand s a f = .ok (l, v, s1)) (d : Dest) (r : Byte) :
    (l.settle (writeDest s1 d l.cell r)).cycles = s.cycles ∧
    (l.settle (writeDest s1 d l.cell r)).freeIdx = s1.freeIdx ∧
    ∀ k : Nat, (∀ ea, d = .f → l.cell = .ram ea → k ≠ ea.toNat) →
      (l.settle (writeDest s1 d l.cell r)).data.read k = s.data.read k := by
  obtain ⟨hcycles, hfree⟩ := writeDest_counters s1 d l.cell r
  rw [Loc.settle_cycles, Loc.settle_freeIdx, Loc.settle_data, ← fetchOperand_data h]
  exact ⟨hcycles.trans (fetchOperand_cycles h), hfree, fun k hk => writeDest_data_read hk s1 r⟩

/-- The end of a counting instruction that skips, for every place of the operand. -/
theorem countFile_skip {op : Byte → Byte} {b : Byte → Bool} {n : Nat} (h : fetchOperand s a f = .ok (l, v, s1))
    (hb : b (op v) = true) (hn : skipWords s = .ok n) :
    countFile d a f op b s = .next (skipOver d l.cell s.pc n (l.settle (writeDest s1 d l.cell (op v)))) :=
  countFile_next.2 ⟨l, v, s1, h, .inr ⟨n, hb, hn, rfl⟩⟩

theorem countsAndSkips_of_countFile {op r : Byte → Byte} {b : Byte → Bool} {cond : Byte → Prop}
    (hexec : exec i s = countFile d a f op b s) (hop : ∀ v, op v = r v) (hb : ∀ v, b v = true ↔ cond v) :
    CountsAndSkips i s d a f r cond := by
  obtain rfl : op = r := funext hop
  have hfalse {v : Byte} (h : ¬ cond v) : b v = false := by rwa [← hb, Bool.not_eq_true] at h
  unfold CountsAndSkips
  rw [hexec]
  refine ⟨fun l v s1 h => ⟨fun hc => ?_, fun n hc hn => ?_, fun e hc he => ?_⟩, fun h => ?_,
    fun e h => countFile_error h⟩
  · obtain ⟨-, -, hdata⟩ := settle_writeDest_frame h d (op v)
    exact ⟨_, rfl, countFile_next.2 ⟨l, v, s1, h, .inl ⟨hfalse hc, rfl⟩⟩, hdata⟩
  · obtain ⟨hcycles, hfree, hdata⟩ := settle_writeDest_frame h d (op v)
    obtain ⟨hframe, hlow, hhigh⟩ :=
      skipOver_frame d l.cell s.pc (skipWords_pos hn) (l.settle (writeDest s1 d l.cell (op v)))
    rw [hcycles] at hlow hhigh
    refine ⟨_, countFile_skip h ((hb _).2 hc) hn, ?_, fun hne => ?_, fun _ => ⟨hlow, hhigh⟩, fun k hk => ?_⟩
    · exact congrArg (fun x : State => { x with pc := s.pc, cycles := s.cycles, freeIdx := s.freeIdx }) hframe
    · rw [skipOver_of_not_pcl hne, afterSkip_eq]
      exact ⟨rfl, by rw [State.tick_cycles, hcycles, Nat.add_assoc], hfree⟩
    · exact (congrArg (fun x : State => x.data.read k) hframe).trans (hdata k hk)
  · exact countFile_skip_error h ((hb _).2 hc) he
  · rintro _ rfl
    refine ⟨fun hc => ?_, fun n hc hn => ?_⟩
    · refine countFile_next.2 ⟨_, _, _, fetchOperand_ram h, .inl ⟨hfalse hc, ?_⟩⟩
      cases d <;> rfl
    · rw [countFile_skip (fetchOperand_ram h) ((hb _).2 hc) hn, skipOver_of_not_pcl (by simp), afterSkip_eq,
        Nat.add_assoc]
      cases d <;> rfl

end Sys2Proof.Machine
end

section
/-! The operations on bytes, in numbers and bit by bit. -/

namespace Sys2Proof.Machine

theorem isDifference_sub8 (x y : Byte) (borrow : Bool) :
    IsDifference x y borrow (sub8 x y borrow).value (sub8 x y borrow).flags := (adderExact x y borrow).2

/-- Adding 1 is adding nothing with a carry in. -/
theorem IsSum.carry_of_one {x r : Byte} {st : Status} (h : IsSum x 1#8 false r st) : IsSum 0#8 x true r st := by
  have hone : (1#8 : Byte).toInt = 1 := rfl
  have hzero : (0#8 : Byte).toInt = 0 := rfl
  simp only [IsSum, hone, hzero, BitVec.toNat_ofNat, Bool.toNat_true, Bool.toNat_false] at h ⊢
  obtain ⟨hr, hc, hdc, hz, hn, hov⟩ := h
  refine ⟨by omega, hc.trans ?_, hdc.trans ?_, hz, hn, hov.trans ?_⟩
  all_goals
    rw [decide_eq_decide]
    omega

/-- The negation not f + 1 is 0 - f (40_byte_oriented R162). -/
theorem isDifference_neg (v : Byte) :
    IsDifference 0#8 v false (add8 (~~~v) 0x01#8 false).value (add8 (~~~v) 0x01#8 false).flags :=
  IsSum.isDifference (isSum_add8 (~~~v) 1#8 false).carry_of_one

theorem isNZ_setNZ (r : Byte) (st : Status) : IsNZ r st (setNZ r st) := by
  rw [IsNZ, setNZ, byte_msb, byte_beq_zero]

theorem isNZ_setCNZ (c : Bool) (r : Byte) (st : Status) : IsNZ r { st with c := c } (setCNZ c r st) :=
  isNZ_setNZ r { st with c := c }

theorem carryBit_toNat (c : Bool) : ((BitVec.ofBool c).setWidth 8).toNat = c.toNat := by cases c <;> rfl

/-- The bit that comes in stands below the seven bits shifted left. -/
theorem rotateLeftC_toNat (v : Byte) (c : Bool) : (rotateLeftC v c).toNat = v.toNat * 2 % 256 + c.toNat := by
  have hv : v.toNat * 2 % 256 = 2 ^ 1 * (v.toNat % 128) := by omega
  have hc : c.toNat < 2 ^ 1 := Bool.toNat_lt c
  rw [rotateLeftC, BitVec.toNat_or, carryBit_toNat, BitVec.toNat_shiftLeft, Nat.shiftLeft_eq, hv,
    Nat.two_pow_add_eq_or_of_lt hc]

/-- The bit that comes in stands above the seven bits shifted right. -/
theorem rotateRightC_toNat (v : Byte) (c : Bool) : (rotateRightC v c).toNat = v.toNat / 2 + 128 * c.toNat := by
  have hv : v.toNat / 2 < 2 ^ 7 := by have := v.isLt; omega
  have hc : c.toNat * 2 ^ 7 % 2 ^ 8 = 2 ^ 7 * c.toNat := by have := c.toNat_le; omega
  rw [rotateRightC, BitVec.toNat_or, BitVec.toNat_shiftLeft, carryBit_toNat, BitVec.toNat_ushiftRight, Nat.shiftLeft_eq,
    Nat.shiftRight_eq_div_pow, hc, Nat.or_comm, ← Nat.two_pow_add_eq_or_of_lt hv]
  omega

theorem swapNibbles_toNat (v : Byte) : (swapNibbles v).toNat = v.toNat % 16 * 16 + v.toNat / 16 := by
  have := v.isLt
  rw [swapNibbles, append_toNat, extract_toNat, extract_toNat]
  omega

theorem msb_toNat (v : Byte) : v.msb.toNat = v.toNat / 128 := by
  have := v.isLt
  have h : v.msb.toNat = v.toNat / 2 ^ 7 % 2 := by rw [BitVec.msb_eq_getLsbD_last]; exact Nat.toNat_testBit _ 7
  omega

theorem bit0_eq (v : Byte) : v.getLsbD 0 = decide (v.toNat % 2 = 1) := Nat.testBit_zero v.toNat

theorem bit0_toNat (v : Byte) : (v.getLsbD 0).toNat = v.toNat % 2 :=
  (Nat.toNat_testBit v.toNat 0).trans (by rw [pow_zero, Nat.div_one])

theorem byte_beq_zero_iff (r : Byte) : (r == 0x00#8) = true ↔ r.toNat = 0 := by
  rw [byte_beq_zero, decide_eq_true_iff]

theorem byte_bne_zero_iff (r : Byte) : (r != 0x00#8) = true ↔ r.toNat ≠ 0 := by
  rw [bne, byte_beq_zero, Bool.not_eq_true', decide_eq_false_iff_not]

theorem sub_one_eq (v : Byte) : v - 0x01#8 = BitVec.ofNat 8 (v.toNat + 255) := by
  apply BitVec.eq_of_toNat_eq
  rw [BitVec.toNat_sub, BitVec.toNat_ofNat, BitVec.toNat_ofNat]
  omega

theorem add_one_eq (v : Byte) : v + 0x01#8 = BitVec.ofNat 8 (v.toNat + 1) := by
  apply BitVec.eq_of_toNat_eq
  rw [BitVec.toNat_add, BitVec.toNat_ofNat, BitVec.toNat_ofNat]

/-- PRODH and PRODL hold the product in full: two bytes have room for it. -/
theorem product_toNat (x y : Byte) :
    256 * ((product x y).extractLsb' 8 8).toNat + ((product x y).extractLsb' 0 8).toNat = x.toNat * y.toNat := by
  have hlt : x.toNat * y.toNat < 256 * 256 := Nat.mul_lt_mul'' x.isLt y.isLt
  rw [extract_toNat, extract_toNat, product, BitVec.toNat_ofNat]
  omega

end Sys2Proof.Machine
end

section
namespace Sys2Proof.Machine

/-- Settles O26: each is the shape that reads and writes, with the adder for its operation. -/
theorem fileAdd : Obligations.FileAdd := fun s _ _ _ =>
  ⟨putsResult_of_modifyFile rfl fun v _ => isSum_add8 s.w v false,
   putsResult_of_modifyFile rfl fun v _ => isSum_add8 s.w v s.status.c,
   putsResult_of_modifyFile rfl fun v _ => isSum_add8 v 1#8 false⟩

/-- Settles O27: as the additions, with the subtracter; NEGF adds 1 to the complement. -/
theorem fileSubtract : Obligations.FileSubtract := fun s _ _ _ =>
  ⟨putsResult_of_modifyFile rfl fun v _ => isDifference_sub8 v s.w false,
   putsResult_of_modifyFile rfl fun v _ => isDifference_sub8 v s.w (!s.status.c),
   putsResult_of_modifyFile rfl fun v _ => isDifference_sub8 s.w v (!s.status.c),
   putsResult_of_modifyFile rfl fun v _ => isDifference_sub8 v 1#8 false,
   putsResult_of_modifyFile rfl fun v _ => isDifference_neg v⟩

/-- Settles O28: the library's bits of each operation. -/
theorem fileLogic : Obligations.FileLogic := by
  refine fun s d a f => ⟨?_, ?_, ?_, ?_, ?_, rfl, rfl, rfl, rfl, rfl⟩
  · exact putsResult_of_modifyFile rfl fun v st => ⟨isNZ_setNZ _ st, fun j _ => BitVec.getLsbD_and⟩
  · exact putsResult_of_modifyFile rfl fun v st => ⟨isNZ_setNZ _ st, fun j _ => BitVec.getLsbD_or⟩
  · exact putsResult_of_modifyFile rfl fun v st => ⟨isNZ_setNZ _ st, fun j _ => BitVec.getLsbD_xor⟩
  · exact putsResult_of_modifyFile rfl fun v st => ⟨isNZ_setNZ _ st, fun j hj => by simp [hj]⟩
  · exact putsResult_of_modifyFile rfl fun v st => ⟨isNZ_setNZ _ st, rfl⟩

/-- Settles O29: a rotate without C takes in the bit that it shifts out. -/
theorem fileRotate : Obligations.FileRotate := by
  refine fun s d a f => ⟨?_, ?_, ?_, ?_, ?_, rfl, rfl, rfl, rfl, rfl⟩
  · refine putsResult_of_modifyFile rfl fun v st => ⟨rotateLeftC_toNat v _, ?_⟩
    rw [← byte_msb]
    exact isNZ_setCNZ _ _ st
  · refine putsResult_of_modifyFile rfl fun v st => ⟨rotateRightC_toNat v _, ?_⟩
    rw [← bit0_eq]
    exact isNZ_setCNZ _ _ st
  · exact putsResult_of_modifyFile rfl fun v st =>
      ⟨(rotateLeftC_toNat v v.msb).trans (by rw [msb_toNat]), isNZ_setNZ _ st⟩
  · exact putsResult_of_modifyFile rfl fun v st =>
      ⟨(rotateRightC_toNat v (v.getLsbD 0)).trans (by rw [bit0_toNat]), isNZ_setNZ _ st⟩
  · exact putsResult_of_modifyFile rfl fun v st => ⟨swapNibbles_toNat v, rfl⟩

/-- Settles O31: each is the shape that stores without a read. -/
theorem fileStore : Obligations.FileStore := fun _ _ _ =>
  ⟨storesByte_of_storeFile rfl, storesByte_of_storeFile rfl, storesByte_of_storeFile rfl, rfl, rfl, rfl⟩

/-- Settles O32: each is the shape that tests, with its condition in numbers. -/
theorem fileTestSkip : Obligations.FileTestSkip := by
  refine fun s b a f => ⟨?_, ?_, ?_, ?_, ?_, ?_, rfl, rfl, rfl, rfl, rfl, rfl⟩
  · exact testsAndSkips_of_testFile rfl fun v => by rw [beq_iff_eq, BitVec.toNat_inj]
  · exact testsAndSkips_of_testFile rfl fun v => decide_eq_true_iff
  · exact testsAndSkips_of_testFile rfl fun v => decide_eq_true_iff
  · exact testsAndSkips_of_testFile rfl byte_beq_zero_iff
  · exact testsAndSkips_of_testFile rfl fun v => by
      rw [getLsbD_eq_decide, Bool.not_eq_true', decide_eq_false_iff_not, Nat.mod_two_not_eq_one]
  · exact testsAndSkips_of_testFile rfl fun v => by rw [getLsbD_eq_decide, decide_eq_true_iff]

/-- Settles O33: each is the shape that counts, with its count and its condition in numbers. -/
theorem fileCountSkip : Obligations.FileCountSkip := fun _ _ _ _ =>
  ⟨countsAndSkips_of_countFile rfl sub_one_eq byte_beq_zero_iff,
   countsAndSkips_of_countFile rfl sub_one_eq byte_bne_zero_iff,
   countsAndSkips_of_countFile rfl add_one_eq byte_beq_zero_iff,
   countsAndSkips_of_countFile rfl add_one_eq byte_bne_zero_iff, rfl, rfl, rfl, rfl⟩

theorem exec_mulwf_eq (a : Access) (f : BitVec 8) (s : State) :
    exec (.mulwf a f) s = useFile a f (fun v t => t.setProd (product s.w v)) s := rfl

/-- Settles O38: two bytes hold the product; MULWF is the shape that uses the byte read. -/
theorem multiply : Obligations.Multiply := by
  intro s a f k
  rw [exec_mulwf_eq]
  refine ⟨fun l v s1 h => ?_, fun h => ?_, fun e h => useFile_error h, ?_, rfl, rfl⟩
  · exact ⟨_, _, product_toNat s.w v, (Loc.settle_data l s1).trans (fetchOperand_data h),
      useFile_next.2 ⟨l, v, s1, h, rfl⟩⟩
  · exact ⟨_, _, product_toNat s.w _, useFile_next.2 ⟨_, _, _, fetchOperand_ram h, rfl⟩⟩
  · exact ⟨_, _, product_toNat s.w k, rfl⟩

end Sys2Proof.Machine
end

section
/-! MOVFF, and the length of a skip by the fetch of the word after it. -/

namespace Sys2Proof.Machine

variable {s s1 s2 : State} {fs fd i : DataAddr} {l m : Loc} {c : Cell} {e : Fault}

theorem movffForbidden_iff {p : Params} : movffForbidden p fd = true ↔
    0xF80 ≤ fd.toNat ∧ p.sfrAt fd ∈ [some .pcl, some .tosu, some .tosh, some .tosl] := by
  unfold movffForbidden
  split
  · next h => simp only [Bool.false_eq_true, false_iff, not_and]; omega
  · next h =>
    cases hs : p.sfrAt fd with
    | none => simp
    | some r => cases r <;> simp [Nat.not_lt.1 h]

/-- An operand at an address with no indirect register lies there. -/
theorem locate_direct (h : cellAt s.params i = .ok c) (hne : ∀ k n, c ≠ .sfr (.ind k n)) :
    locate s i = .ok (⟨c, none⟩, s) := by
  unfold locate
  rw [h]
  cases c with
  | sfr r =>
    cases r with
    | ind k n => exact absurd rfl (hne k n)
    | _ => rfl
  | _ => rfl

theorem locate_wreg (hi : 0xF80 ≤ i.toNat) (hs : s.params.sfrAt i = some .wreg) :
    locate s i = .ok (⟨.sfr .wreg, none⟩, s) := locate_direct (cellAt_sfr hi hs rfl) nofun

theorem exec_movff_of_forbidden (h : movffForbidden s.params fd = true) :
    exec (.movff fs fd) s = .fault (.forbiddenMovffDest fd) := if_pos h

section
variable (hf : movffForbidden s.params fd = false)
include hf

theorem exec_movff_of_located (hsrc : locate (s.advance 4#21) fs = .ok (l, s1))
    (hdst : locate (l.settle (readCell s1 l.cell).2) fd = .ok (m, s2)) :
    exec (.movff fs fd) s = .next ((m.settle (writeCell s2 m.cell (readCell s1 l.cell).1)).tick 2) :=
  execMovff_next.2 ⟨hf, l, s1, m, s2, hsrc, hdst, rfl⟩

theorem exec_movff_of_source_error (hsrc : locate (s.advance 4#21) fs = .error e) :
    exec (.movff fs fd) s = .fault e := by
  simp only [exec, execMovff, hf, hsrc, Bool.false_eq_true, if_false]

theorem exec_movff_of_destination_error (hsrc : locate (s.advance 4#21) fs = .ok (l, s1))
    (hdst : locate (l.settle (readCell s1 l.cell).2) fd = .error e) : exec (.movff fs fd) s = .fault e := by
  simp only [exec, execMovff, hf, hsrc, hdst, Bool.false_eq_true, if_false]

end

theorem skipWords_of_error (h : fetchInstr s (s.pc + 2#21) = .error e) : skipWords s = .error e := by
  unfold skipWords
  rw [h]

theorem skipWords_of_one {w : Word} {j : Instr} (hw : fetchWord s (s.pc + 2#21) = .ok w)
    (hf : firstWord w = .one j) : skipWords s = .ok 1 :=
  skipWords_ok.2 ⟨j, fetchInstr_ok.2 ⟨w, hw, .inl ⟨hf, rfl⟩⟩⟩

end Sys2Proof.Machine
end

section
namespace Sys2Proof.Machine

/-- Settles O36: the source is read and its FSR stepped before the destination is located; neither reads nor steps
change data memory. -/
theorem movffCopies : Obligations.MovffCopies := by
  intro s fs fd hallowed
  have hf : movffForbidden s.params fd = false := by
    rw [← Bool.not_eq_true, movffForbidden_iff, not_and_or, Nat.not_le]
    exact hallowed
  refine ⟨fun l s1 m s2 hsrc hdst => ?_, fun hsrc hdst => ?_, fun hsrc hi hs => ?_, fun hi hs hdst => ?_,
    fun e hsrc => exec_movff_of_source_error hf hsrc,
    fun l s1 e hsrc hdst => exec_movff_of_destination_error hf hsrc hdst⟩
  · refine ⟨_, rfl, exec_movff_of_located hf hsrc hdst, fun k hk => ?_⟩
    have hdata : s2.data = s.data := calc
      s2.data = (l.settle (readCell s1 l.cell).2).data := locate_data hdst
      _ = s1.data := (Loc.settle_data l _).trans (readCell_data s1 l.cell)
      _ = s.data := (locate_data hsrc).trans (State.advance_data s 4#21)
    rw [State.tick_data, Loc.settle_data, writeCell_data_read hk, hdata]
  · exact exec_movff_of_located hf (locate_ram (s := s.advance 4#21) hsrc) (locate_ram (s := s.advance 4#21) hdst)
  · exact exec_movff_of_located hf (locate_ram (s := s.advance 4#21) hsrc) (locate_wreg (s := s.advance 4#21) hi hs)
  · exact exec_movff_of_located hf (locate_wreg (s := s.advance 4#21) hi hs) (locate_ram (s := s.advance 4#21) hdst)

/-- Settles O34: each clause is one check of the fetch of the word after the skip. -/
theorem skipLength : Obligations.SkipLength := by
  intro s w1 w2
  have hsecond : s.pc + 4#21 = s.pc + 2#21 + 2#21 := by rw [BitVec.add_assoc]; rfl
  refine ⟨fun hw => ⟨fun i hf => skipWords_of_one hw hf, fun hf => skipWords_of_error (fetchInstr_of_reserved hw hf),
    fun t hf hw2 => ?_, fun t hf habsent hu => ?_, fun t hf habsent hu => ?_⟩,
    fun habsent hu => ?_, fun habsent hu => ?_⟩
  · cases h2 : secondWord t w2 with
    | none => exact skipWords_of_error (fetchInstr_of_malformed hw hf hw2 h2)
    | some i => exact skipWords_ok.2 ⟨i, fetchInstr_ok.2 ⟨w1, hw, .inr ⟨t, w2, hf, hw2, h2, rfl⟩⟩⟩
  · rw [hsecond] at habsent ⊢
    exact skipWords_of_error (fetchInstr_of_second_error hw hf (fetchWord_absent_fault habsent hu))
  · rw [hsecond] at habsent
    exact skipWords_of_error
      (fetchInstr_of_malformed hw hf (fetchWord_absent_readZero habsent hu) (secondWord_zero t))
  · exact skipWords_of_error (fetchInstr_of_fetchWord_error (fetchWord_absent_fault habsent hu))
  · exact skipWords_of_one (fetchWord_absent_readZero habsent hu) rfl

end Sys2Proof.Machine
end

section
namespace Sys2Proof

/-- Settles O37: the check of the destination is the first of MOVFF's. -/
theorem movffForbidden : Obligations.MovffForbidden := fun _ _ _ hi hs =>
  Machine.exec_movff_of_forbidden (Machine.movffForbidden_iff.2 ⟨hi, hs⟩)

end Sys2Proof
end

section
/-! The bit-oriented instructions: the byte with one bit cleared, set or toggled, bit by bit. -/

namespace Sys2Proof.Machine

variable {j : Nat}

/-- The mask of bit `k` is the byte 0 with bit `k` put to 1. -/
theorem bitMask_getLsbD (k : BitVec 3) (hj : j < 8) : (bitMask k).getLsbD j = decide (j = k.toNat) := by
  have hput : putBit 0#8 k true = bitMask k := BitVec.zero_or
  rw [← hput, putBit_getLsbD _ _ _ hj, BitVec.getLsbD_zero, Bool.if_false_right, Bool.and_true]

theorem xor_bitMask_getLsbD (v : Byte) (k : BitVec 3) (hj : j < 8) :
    (v ^^^ bitMask k).getLsbD j = if j = k.toNat then !v.getLsbD j else v.getLsbD j := by
  rw [BitVec.getLsbD_xor, bitMask_getLsbD k hj]
  split
  · next h => rw [decide_eq_true h, Bool.xor_true]
  · next h => rw [decide_eq_false h, Bool.xor_false]

/-- Settles O30: each is the shape that reads and writes; BCF puts the bit to 0, BSF to 1, BTG flips it by the mask. -/
theorem fileBits : Obligations.FileBits := by
  refine fun s b a f => ⟨?_, ?_, ?_, rfl, rfl, rfl⟩
  · exact putsResult_of_modifyFile rfl fun v _ => ⟨rfl, fun _ hj => putBit_getLsbD v b false hj⟩
  · exact putsResult_of_modifyFile rfl fun v _ => ⟨rfl, fun _ hj => putBit_getLsbD v b true hj⟩
  · exact putsResult_of_modifyFile rfl fun v _ => ⟨rfl, fun _ hj => xor_bitMask_getLsbD v b hj⟩

end Sys2Proof.Machine
end

section
/-! Branches and jumps: their targets in integers, and the conditional branches by their one shared operation. -/

namespace Sys2Proof.Machine

variable {s : State} {i : Instr} {c : Bool} {n : BitVec 8}

theorem isAddr_branchTarget {w : Nat} (hw : w ≤ 21) (pc : ProgAddr) (n : BitVec w) :
    IsAddr (branchTarget pc (n.signExtend 21)) (pc.toNat + 2 + 2 * n.toInt) := branchTarget_toNat hw pc n

/-- A target 2k needs no reduction: twice a number of 20 bits has 21. -/
theorem isAddr_wordTarget (k : BitVec 20) : IsAddr (k ++ 0#1) (2 * k.toNat) := by
  have hk := k.isLt
  have hval : (k ++ 0#1).toNat = 2 ^ 1 * k.toNat + (0#1).toNat := append_toNat k 0#1
  rw [BitVec.toNat_ofNat] at hval
  unfold IsAddr
  omega

theorem exec_branch_taken (h : exec i s = branchIf c n s) (hc : c = true) :
    ∃ t, IsAddr t (s.pc.toNat + 2 + 2 * n.toInt) ∧ exec i s = .next { s with pc := t, cycles := s.cycles + 2 } := by
  subst hc
  exact ⟨_, isAddr_branchTarget (by decide) s.pc n, h.trans (branchIf_eq true n s)⟩

theorem exec_branch_not_taken (h : exec i s = branchIf c n s) (hc : c = false) :
    exec i s = .next { s with pc := s.pc + 2#21, cycles := s.cycles + 1 } := by
  subst hc
  exact h.trans (branchIf_eq false n s)

end Sys2Proof.Machine
end

section
namespace Sys2Proof.Machine

/-- Settles O39: each of the eight is the conditional branch on its own flag. -/
theorem conditionalBranches : Obligations.ConditionalBranches := by
  intro s n op i c hmem
  have hbranch : exec i s = branchIf c n s ∧ encode i = [op ++ n] := by
    simp only [List.mem_cons, List.not_mem_nil, or_false, Prod.mk.injEq] at hmem
    rcases hmem with ⟨rfl, rfl, rfl⟩ | ⟨rfl, rfl, rfl⟩ | ⟨rfl, rfl, rfl⟩ | ⟨rfl, rfl, rfl⟩ | ⟨rfl, rfl, rfl⟩ |
      ⟨rfl, rfl, rfl⟩ | ⟨rfl, rfl, rfl⟩ | ⟨rfl, rfl, rfl⟩
    all_goals exact ⟨rfl, rfl⟩
  obtain ⟨hexec, hword⟩ := hbranch
  exact ⟨exec_branch_taken hexec, exec_branch_not_taken hexec, hword⟩

/-- Settles O40: both go to their target whatever the state. -/
theorem jumps : Obligations.Jumps := fun s n k =>
  ⟨⟨_, isAddr_branchTarget (by decide) s.pc n, rfl⟩, ⟨_, isAddr_wordTarget k, rfl⟩, rfl, rfl⟩

/-- Settles O46: each ends as a one-word instruction of one cycle. -/
theorem clrwdtSleepNops : Obligations.ClrwdtSleepNops := fun s _ =>
  ⟨rfl, rfl, exec_nop_eq s, exec_nop_eq s, rfl, rfl, rfl, rfl⟩

end Sys2Proof.Machine
end

section
/-! Calls and returns: the push with room and the pop of an address, and the instructions made of them. -/

namespace Sys2Proof.Machine

variable {s : State} {rest : List ProgAddr} {v : ProgAddr}

theorem push_of_room (h : s.stack.length < s.params.stackDepth) (v : ProgAddr) :
    s.push v = .ok { s with stack := s.stack ++ [v] } := push_ok.2 ⟨h, rfl⟩

theorem pop_of_top (h : s.stack = rest ++ [v]) : s.pop = .ok (v, { s with stack := rest }) := pop_ok.2 ⟨rest, h, rfl⟩

theorem exec_call_of_room (h : s.stack.length < s.params.stackDepth) (fast : Bool) (k : BitVec 20) :
    exec (.call fast k) s = .next { s with
      pc := k ++ 0#1
      cycles := s.cycles + 2
      stack := s.stack ++ [s.pc + 4#21]
      ws := if fast then s.w else s.ws
      statuss := if fast then s.status else s.statuss
      bsrs := if fast then s.bsr else s.bsrs } := by
  simp only [exec, execCall, push_of_room h]
  cases fast <;> rfl

theorem exec_retlw_of_top (h : s.stack = rest ++ [v]) (k : BitVec 8) :
    exec (.retlw k) s = .next { s with pc := evenAddr v, cycles := s.cycles + 2, stack := rest, w := k } := by
  simp only [exec, execRetlw, pop_of_top h]
  rfl

theorem exec_ret_of_top (h : s.stack = rest ++ [v]) (fast : Bool) :
    exec (.ret fast) s = .next { s with
      pc := evenAddr v
      cycles := s.cycles + 2
      stack := rest
      w := if fast then s.ws else s.w
      status := if fast then s.statuss else s.status
      bsr := if fast then s.bsrs else s.bsr } := by
  simp only [exec, execReturn, pop_of_top h]
  cases fast <;> rfl

/-- The one enable bit that a return from interrupt sets, and the nesting after it, by the nesting before (60_exceptions
R291, R292). -/
theorem State.interruptReturn_eq (s : State) : s.interruptReturn = { s with
    giel := if s.intLevel = .low then true else s.giel
    gieh := if s.intLevel = .low then s.gieh else true
    intLevel := if s.intLevel = .highOverLow then .low else .none } := by
  unfold State.interruptReturn
  cases s.intLevel <;> rfl

theorem exec_retfie_of_top (h : s.stack = rest ++ [v]) (fast : Bool) :
    exec (.retfie fast) s = .next { s with
      pc := evenAddr v
      cycles := s.cycles + 2
      stack := rest
      giel := if s.intLevel = .low then true else s.giel
      gieh := if s.intLevel = .low then s.gieh else true
      intLevel := if s.intLevel = .highOverLow then .low else .none
      w := if fast then s.ws else s.w
      status := if fast then s.statuss else s.status
      bsr := if fast then s.bsrs else s.bsr } := by
  simp only [exec, execRetfie, pop_of_top h, State.interruptReturn_eq]
  cases fast <;> rfl

end Sys2Proof.Machine
end

section
namespace Sys2Proof.Machine

/-- Settles O41: with room each push is one more address on top. -/
theorem callsAndPush : Obligations.CallsAndPush := by
  intro s fast k n hroom
  refine ⟨⟨_, isAddr_wordTarget k, exec_call_of_room hroom fast k⟩,
    ⟨_, isAddr_branchTarget (by decide) s.pc n, ?_⟩, ?_⟩
  · simp only [exec, execRcall, push_of_room hroom]
    rfl
  · simp only [exec, execPush, push_of_room hroom]
    rfl

/-- Settles O42: each takes the address on top away, and the pc its even part. -/
theorem popAndReturns : Obligations.PopAndReturns := by
  intro s rest v k fast htop
  refine ⟨?_, _, evenAddr_toNat v, exec_retlw_of_top htop k, exec_ret_of_top htop fast⟩
  simp only [exec, execPop, pop_of_top htop]
  rfl

/-- Settles O43: RETURN with the return from interrupt before its restore. -/
theorem returnFromInterrupt : Obligations.ReturnFromInterrupt := fun _ _ v fast htop =>
  ⟨_, evenAddr_toNat v, exec_retfie_of_top htop fast⟩

/-- Settles O45: a CALL that gives a next state had room, so the address after it is on top of the stack that RETURN
finds; it is even, so the pc takes the whole of it. -/
theorem fastCallReturns : Obligations.FastCallReturns := by
  intro s t u k heven hcall hstack hws hstatuss hbsrs
  have hroom : s.stack.length < s.params.stackDepth := by
    by_contra hfull
    have hfault := ((stackFaults s true k 0#11 0#8).1 (Nat.not_lt.1 hfull)).1
    cases hfault.symm.trans hcall
  have hpc : (s.pc + 4#21).getLsbD 0 = false := (add_even_bit0 _ _ (by decide)).trans heven
  rw [exec_call_of_room hroom] at hcall
  cases hcall
  rw [exec_ret_of_top hstack, evenAddr_of_even hpc, hws, hstatuss, hbsrs]
  rfl

end Sys2Proof.Machine
end

section
/-! DAW: the adjustment of a sum of decimal digits. `high` and `low` stand for the sums of the two digits in each place, the
carry in being counted in `low`. -/

namespace Sys2Proof.Machine

theorem exec_daw_eq (s : State) :
    exec .daw s = .next { s with
      pc := s.pc + 2#21
      cycles := s.cycles + 1
      w := BitVec.ofNat 8 (dawHigh s.w s.status.dc s.status.c)
      status := { s.status with c := s.status.c || decide (dawHigh s.w s.status.dc s.status.c > 255) } } := rfl

theorem dawLow_eq (w : Byte) (dc : Bool) :
    dawLow w dc = w.toNat + if w.toNat % 16 > 9 ∨ dc = true then 6 else 0 := by
  simp only [dawLow, Bool.or_eq_true, decide_eq_true_iff]

theorem dawHigh_eq (w : Byte) (dc c : Bool) :
    dawHigh w dc c = dawLow w dc + if dawLow w dc / 16 > 9 ∨ c = true then 96 else 0 := by
  simp only [dawHigh, Bool.or_eq_true, decide_eq_true_iff]

theorem bcdByte_toNat (tens ones : Fin 10) : (bcdByte tens ones).toNat = 16 * tens.val + ones.val := by
  have htens := tens.isLt
  have hones := ones.isLt
  rw [bcdByte, BitVec.toNat_ofNat]
  omega

theorem hundreds_toNat {n : Nat} (hn : n < 200) : (decide (n ≥ 100)).toNat = n / 100 := by
  by_cases h : n ≥ 100
  · rw [decide_eq_true h, Bool.toNat_true]
    omega
  · rw [decide_eq_false h, Bool.toNat_false]
    omega

section
variable {high low : Nat} {w : Byte} {dc c : Bool}

/-- The low digit is adjusted when the sum in its place is above 9: then the half byte is above 9 or has carried. -/
theorem dawLow_of_digits (hlow : low ≤ 19) (hw : w.toNat = (16 * high + low) % 256) (hdc : dc = decide (low > 15)) :
    dawLow w dc = w.toNat + if low > 9 then 6 else 0 := by
  have htest : (w.toNat % 16 > 9 ∨ dc = true) ↔ low > 9 := by
    rw [hdc, decide_eq_true_iff]
    omega
  rw [dawLow_eq, if_congr htest rfl rfl]

/-- The two digits of the decimal sum stand in W, and its hundreds in the carry. -/
theorem dawHigh_of_digits (hhigh : high ≤ 18) (hlow : low ≤ 19) (hw : w.toNat = (16 * high + low) % 256)
    (hdc : dc = decide (low > 15)) (hc : c = decide (16 * high + low > 255)) :
    dawHigh w dc c % 256 = 16 * ((10 * high + low) / 10 % 10) + (10 * high + low) % 10 ∧
      (c || decide (dawHigh w dc c > 255)) = decide (10 * high + low ≥ 100) := by
  have ht := dawLow_of_digits hlow hw hdc
  have htest : (dawLow w dc / 16 > 9 ∨ c = true) ↔ 10 * high + low ≥ 100 := by
    rw [ht, hc, decide_eq_true_iff]
    split <;> omega
  have hu : dawHigh w dc c = dawLow w dc + if 10 * high + low ≥ 100 then 96 else 0 := by
    rw [dawHigh_eq, if_congr htest rfl rfl]
  rw [hu, ht]
  constructor
  · split <;> split <;> omega
  · rw [hc, ← Bool.decide_or, decide_eq_decide]
    split <;> split <;> omega

end

end Sys2Proof.Machine
end

section
namespace Sys2Proof.Machine

/-- Settles O47: the two numbers are those of the two adjustments. -/
theorem decimalAdjust : Obligations.DecimalAdjust := by
  intro s t u ht hu
  have hlow : dawLow s.w s.status.dc = t := (dawLow_eq _ _).trans ht.symm
  have hhigh : dawHigh s.w s.status.dc s.status.c = u := by rw [dawHigh_eq, hlow, hu]
  refine ⟨BitVec.ofNat 8 u, BitVec.toNat_ofNat u 8, ?_⟩
  rw [exec_daw_eq, hhigh]

/-- Settles O48: the adder gives the sum of the packed bytes, in which the two places are those of 16. -/
theorem decimalAdjustAfterAdd : Obligations.DecimalAdjustAfterAdd := by
  intro s x1 x0 y1 y0 cin hw hst
  have hx1 := x1.isLt
  have hx0 := x0.isLt
  have hy1 := y1.isLt
  have hy0 := y0.isLt
  have hcin := cin.toNat_le
  obtain ⟨high, hhigh⟩ : ∃ high, high = x1.val + y1.val := ⟨_, rfl⟩
  obtain ⟨low, hlow⟩ : ∃ low, low = x0.val + y0.val + cin.toNat := ⟨_, rfl⟩
  obtain ⟨hval, hc, hdc, -⟩ := isSum_add8 (bcdByte x1 x0) (bcdByte y1 y0) cin
  rw [← hw, bcdByte_toNat, bcdByte_toNat] at hval
  rw [← hst, bcdByte_toNat, bcdByte_toNat] at hc hdc
  have hval' : s.w.toNat = (16 * high + low) % 256 := by rw [hval]; omega
  have hc' : s.status.c = decide (16 * high + low > 255) := hc.trans (decide_eq_decide.2 (by omega))
  have hdc' : s.status.dc = decide (low > 15) := hdc.trans (decide_eq_decide.2 (by omega))
  obtain ⟨hdigits, hcarry⟩ := dawHigh_of_digits (by omega) (by omega) hval' hdc' hc'
  refine ⟨_, ⟨(10 * high + low) / 10 % 10, Nat.mod_lt _ (by decide)⟩, ⟨(10 * high + low) % 10, Nat.mod_lt _ (by decide)⟩,
    exec_daw_eq s, ?_, ?_⟩
  · apply BitVec.eq_of_toNat_eq
    rw [BitVec.toNat_ofNat, bcdByte_toNat]
    exact hdigits
  · rw [hcarry, hundreds_toNat (by omega)]
    dsimp only
    omega

end Sys2Proof.Machine
end

section
/-! Resets: every element goes as its entry of `RESET_STATE` says, for each kind of reset. -/

namespace Sys2Proof.Machine

theorem isReset_pick {α : Type} (r : ResetValue α) (old free : α) : IsReset r old (r.pick old free) := by
  cases r with
  | unknown => exact trivial
  | value | unchanged => rfl

/-- Each part of an FSR goes by its own entry. -/
theorem isReset_resetFsr (h : ResetValue (BitVec 4)) (l : ResetValue Byte) (old : BitVec 12) (a b : Nat) :
    IsReset h (old.extractLsb' 8 4) ((resetFsr h l old a b).extractLsb' 8 4) ∧
      IsReset l (old.extractLsb' 0 8) ((resetFsr h l old a b).extractLsb' 0 8) := by
  obtain ⟨hhigh, hlow⟩ := resetFsr_parts h l old a b
  rw [hhigh, hlow]
  exact ⟨isReset_pick h _ _, isReset_pick l _ _⟩

/-- An FSR whose upper part is cleared and whose lower part is kept. -/
theorem resetFsr_low_toNat (old : BitVec 12) (a b : Nat) :
    (resetFsr (.value 0#4) .unchanged old a b).toNat = old.toNat % 256 := by
  have hparts : (resetFsr (.value 0#4) .unchanged old a b).toNat = 2 ^ 8 * (0#4).toNat + (old.extractLsb' 0 8).toNat :=
    append_toNat _ _
  rw [hparts, extract_toNat, BitVec.toNat_ofNat]
  omega

/-- Below its size a memory made of cells reads as the list of them does. -/
theorem Memory.read_ofCells {n a : Nat} (ha : a < n) (cells : List (Nat × Byte)) :
    (Memory.ofCells n cells).read a = Memory.read cells a := by
  induction cells with
  | nil => rfl
  | cons c cells ih =>
    obtain ⟨k, v⟩ := c
    have hcons : Memory.ofCells n ((k, v) :: cells) =
        if k < n then (Memory.ofCells n cells).write k v else Memory.ofCells n cells := rfl
    rw [hcons, Memory.read_cons]
    split
    · rw [Memory.read_write (Memory.wf_ofCells n cells), ih]
    · next hk => rw [ih, if_neg (by omega)]

/-- Every element goes as its entry of the column says, whatever the free values (70_reset R321, R322). -/
theorem resetBy_resetElements (row : ResetRow) (x : Nat → Nat) (s : State) : ResetBy row s (resetElements row x s) := by
  obtain ⟨hfsr0h, hfsr0l⟩ := isReset_resetFsr row.fsr0h row.fsr0l s.fsr0 (x 19) (x 9)
  obtain ⟨hfsr1h, hfsr1l⟩ := isReset_resetFsr row.fsr1h row.fsr1l s.fsr1 (x 20) (x 10)
  obtain ⟨hfsr2h, hfsr2l⟩ := isReset_resetFsr row.fsr2h row.fsr2l s.fsr2 (x 21) (x 11)
  constructor
  case fsr0h => exact hfsr0h
  case fsr0l => exact hfsr0l
  case fsr1h => exact hfsr1h
  case fsr1l => exact hfsr1l
  case fsr2h => exact hfsr2h
  case fsr2l => exact hfsr2l
  case data_value =>
    intro cells hcells a ha
    simp only [resetElements, hcells]
    exact Memory.read_ofCells ha cells
  case data_unchanged =>
    intro hdata
    simp only [resetElements, hdata]
    rfl
  all_goals exact isReset_pick _ _ _

/-- The column speaks of no other element: the pc, the stack, the sleep state, the nesting and the counts. -/
theorem ResetBy.of_elements {row : ResetRow} {s t : State} (h : ResetBy row s t) (pc : ProgAddr) (stack : List ProgAddr)
    (asleep : Bool) (level : IntLevel) (freeIdx cycles : Nat) :
    ResetBy row s { t with pc, stack, asleep, intLevel := level, freeIdx, cycles } := { h with }

/-- The same for a whole reset, at any count of cycles and of free values after it. -/
theorem resetBy_doReset (k : ResetKind) (s : State) (freeIdx cycles : Nat) :
    ResetBy (resetRow k s) s { doReset k s with freeIdx, cycles } :=
  (resetBy_resetElements (resetRow k s) (Config.freeAtReset s.freeIdx) s).of_elements _ _ _ _ _ _

theorem exec_reset_eq (s : State) : exec .reset s = .next ((doReset .software s).tick 1) := rfl

/-- The software reset with the default `RESET_STATE`, written out (70_reset R322). -/
theorem doReset_software_default_eq {s : State} (h : s.params.resetState = defaultResetState) :
    doReset .software s = { s with
      pc := evenAddr s.params.resetVector
      status := freeStatus (Config.freeAtReset s.freeIdx 17)
      hold := freeHolding (Config.freeAtReset s.freeIdx)
      freeIdx := s.freeIdx + 1
      stack := [], asleep := false, intLevel := .none, gieh := false, giel := false
      bsr := 0#4, tblptr := 0#21, tablat := 0#8, pclath := 0#8, pclatu := 0#5, wdt := 0, wdtps := 0
      wdtClearedAt := s.cycles
      fsr0 := resetFsr (.value 0#4) .unchanged s.fsr0 (Config.freeAtReset s.freeIdx 19) (Config.freeAtReset s.freeIdx 9)
      fsr1 := resetFsr (.value 0#4) .unchanged s.fsr1 (Config.freeAtReset s.freeIdx 20) (Config.freeAtReset s.freeIdx 10)
      fsr2 := resetFsr (.value 0#4) .unchanged s.fsr2
        (Config.freeAtReset s.freeIdx 21) (Config.freeAtReset s.freeIdx 11) } := by
  have hrow : resetRow .software s = defaultResetMclr := congrArg ResetTable.mclr h
  unfold doReset
  rw [hrow]
  rfl

end Sys2Proof.Machine
end

section
namespace Sys2Proof.Machine

/-- Settles O49: what R321 fixes and what no reset changes, the column for the rest, and the default column written
out. -/
theorem softwareReset : Obligations.SoftwareReset := by
  intro s
  refine ⟨_, exec_reset_eq s, evenAddr_toNat s.params.resetVector, rfl, rfl, rfl, rfl, rfl, rfl, rfl,
    resetBy_doReset .software s _ _, fun hdefault => ?_⟩
  rw [doReset_software_default_eq hdefault]
  exact ⟨rfl, resetFsr_low_toNat _ _ _, resetFsr_low_toNat _ _ _, resetFsr_low_toNat _ _ _⟩

end Sys2Proof.Machine
end

section
/-! What an instruction without a file operand leaves alone: data memory, the latches of the pc and the interrupt enables.
The stack instructions go by their exact next states, which need room on the return stack or an address there. -/

namespace Sys2Proof.Machine

/-- What only a file operand, RETFIE and RESET reach: data memory, the latches of the pc and the interrupt enables. -/
def State.operandReach (s : State) : Memory × Byte × BitVec 5 × Bool × Bool :=
  (s.data, s.pclath, s.pclatu, s.gieh, s.giel)

theorem State.operandReach_inj {s t : State} :
    t.operandReach = s.operandReach ↔
      t.data = s.data ∧ t.pclath = s.pclath ∧ t.pclatu = s.pclatu ∧ t.gieh = s.gieh ∧ t.giel = s.giel := by
  simp only [State.operandReach, Prod.mk.injEq]

theorem State.operandReach_setFsr (s : State) (n : FsrNum) (v : BitVec 12) :
    (s.setFsr n v).operandReach = s.operandReach := by cases n <;> rfl

variable {i : Instr} {s t : State}

/-- An instruction that pushes and gives a next state had room on the return stack. -/
theorem room_of_exec (hi : (∃ fast k, i = .call fast k) ∨ (∃ n, i = .rcall n) ∨ i = .push) (h : exec i s = .next t) :
    s.stack.length < s.params.stackDepth := by
  by_contra hfull
  have hfaults (fast : Bool) (k : BitVec 20) (n : BitVec 11) := (stackFaults s fast k n 0#8).1 (Nat.not_lt.1 hfull)
  rcases hi with ⟨fast, k, rfl⟩ | ⟨n, rfl⟩ | rfl
  · obtain ⟨hcall, -, -⟩ := hfaults fast k 0#11
    cases hcall.symm.trans h
  · obtain ⟨-, hrcall, -⟩ := hfaults false 0#20 n
    cases hrcall.symm.trans h
  · obtain ⟨-, -, hpush⟩ := hfaults false 0#20 0#11
    cases hpush.symm.trans h

/-- An instruction that pops and gives a next state had an address on the return stack. -/
theorem top_of_exec (hi : i = .pop ∨ (∃ k, i = .retlw k) ∨ (∃ fast, i = .retfie fast) ∨ (∃ fast, i = .ret fast))
    (h : exec i s = .next t) : ∃ rest v, s.stack = rest ++ [v] := by
  refine (List.eq_nil_or_concat' s.stack).resolve_left fun hempty => ?_
  have hfaults (fast : Bool) (k : BitVec 8) := (stackFaults s fast 0#20 0#11 k).2.2 hempty
  rcases hi with rfl | ⟨k, rfl⟩ | ⟨fast, rfl⟩ | ⟨fast, rfl⟩
  · obtain ⟨hpop, -, -, -⟩ := hfaults false 0#8
    cases hpop.symm.trans h
  · obtain ⟨-, hretlw, -, -⟩ := hfaults false k
    cases hretlw.symm.trans h
  · obtain ⟨-, -, -, hretfie⟩ := hfaults fast 0#8
    cases hretfie.symm.trans h
  · obtain ⟨-, -, hret, -⟩ := hfaults fast 0#8
    cases hret.symm.trans h

theorem operandReach_of_branchIf {c : Bool} {n : BitVec 8} (h : branchIf c n s = .next t) :
    t.operandReach = s.operandReach := by
  rw [branchIf_eq] at h
  cases h
  rfl

theorem operandReach_of_tableRead {p q : ProgAddr} (h : tableRead p q s = .next t) :
    t.operandReach = s.operandReach := by
  obtain ⟨v, -, rfl⟩ := tableRead_next.1 h
  rfl

theorem operandReach_of_execLfsr {f : BitVec 2} {k : BitVec 12} (h : execLfsr f k s = .next t) :
    t.operandReach = s.operandReach := by
  unfold execLfsr at h
  split at h
  · next n _ =>
    cases h
    exact s.operandReach_setFsr n k
  · cases h

/-- But for RETFIE and RESET, an instruction without a file operand keeps all of it. -/
theorem exec_operandReach (h : exec i s = .next t) (hfile : hasFileOperand i = false) (hretfie : ∀ fast, i ≠ .retfie fast)
    (hreset : i ≠ .reset) : t.operandReach = s.operandReach := by
  cases i with
  | addwf | addwfc | andwf | clrf | comf | cpfseq | cpfsgt | cpfslt | decf | decfsz | decfsnz | incf | incfsz | infsnz
  | iorwf | movf | movff | movwf | mulwf | negf | rlcf | rlncf | rrcf | rrncf | setf | subfwb | subwf | subwfb | swapf
  | tstfsz | xorwf | bcf | bsf | btfsc | btfss | btg => cases hfile
  | retfie fast => exact absurd rfl (hretfie fast)
  | reset => exact absurd rfl hreset
  | bc | bn | bnc | bnn | bnov | bnz | bov | bz => exact operandReach_of_branchIf h
  | bra | goto | clrwdt | sleep | daw | nop | nopF | addlw | andlw | iorlw | movlb | movlw | mullw | sublw | xorlw
  | tblwt | tblwtPostInc | tblwtPostDec | tblwtPreInc =>
    cases h
    rfl
  | lfsr => exact operandReach_of_execLfsr h
  | tblrd | tblrdPostInc | tblrdPostDec | tblrdPreInc => exact operandReach_of_tableRead h
  | call fast k =>
    rw [exec_call_of_room (room_of_exec (.inl ⟨fast, k, rfl⟩) h)] at h
    cases h
    rfl
  | rcall n =>
    obtain ⟨-, ⟨_, -, hrcall⟩, -⟩ := callsAndPush s false 0#20 n (room_of_exec (.inr (.inl ⟨n, rfl⟩)) h)
    cases hrcall.symm.trans h
    rfl
  | push =>
    obtain ⟨-, -, hpush⟩ := callsAndPush s false 0#20 0#11 (room_of_exec (.inr (.inr rfl)) h)
    cases hpush.symm.trans h
    rfl
  | pop =>
    obtain ⟨rest, v, htop⟩ := top_of_exec (.inl rfl) h
    obtain ⟨hpop, -⟩ := popAndReturns s rest v 0#8 false htop
    cases hpop.symm.trans h
    rfl
  | retlw k =>
    obtain ⟨rest, v, htop⟩ := top_of_exec (.inr (.inl ⟨k, rfl⟩)) h
    cases (exec_retlw_of_top htop k).symm.trans h
    rfl
  | ret fast =>
    obtain ⟨rest, v, htop⟩ := top_of_exec (.inr (.inr (.inr ⟨fast, rfl⟩))) h
    cases (exec_ret_of_top htop fast).symm.trans h
    rfl

/-- RETFIE sets an enable, but leaves data memory and the latches alone. -/
theorem exec_retfie_frame {fast : Bool} (h : exec (.retfie fast) s = .next t) :
    t.data = s.data ∧ t.pclath = s.pclath ∧ t.pclatu = s.pclatu := by
  obtain ⟨rest, v, htop⟩ := top_of_exec (.inr (.inr (.inl ⟨fast, rfl⟩))) h
  cases (exec_retfie_of_top htop fast).symm.trans h
  exact ⟨rfl, rfl, rfl⟩

/-- RESET leaves data memory as the default `RESET_STATE` says (70_reset R322). -/
theorem exec_reset_data (hdefault : s.params.resetState = defaultResetState) (h : exec .reset s = .next t) :
    t.data = s.data := by
  rw [exec_reset_eq, doReset_software_default_eq hdefault] at h
  cases h
  rfl

end Sys2Proof.Machine
end

section
namespace Sys2Proof.Machine

/-- Settles O17: RESET and RETFIE by their own next states, every other instruction without a file operand by
`exec_operandReach`. -/
theorem dataReachedByOperandOnly : Obligations.DataReachedByOperandOnly := by
  intro i s t h hfile
  by_cases hreset : i = .reset
  · subst hreset
    exact ⟨fun hdefault => exec_reset_data (hdefault rfl) h, fun hne => absurd rfl hne, fun hne => absurd rfl hne⟩
  · by_cases hretfie : ∃ fast, i = .retfie fast
    · obtain ⟨fast, rfl⟩ := hretfie
      obtain ⟨hdata, hlatches⟩ := exec_retfie_frame h
      exact ⟨fun _ => hdata, fun _ => hlatches, fun _ hne => absurd rfl (hne fast)⟩
    · obtain ⟨hdata, hpclath, hpclatu, henables⟩ :=
        State.operandReach_inj.1 (exec_operandReach h hfile (not_exists.1 hretfie) hreset)
      exact ⟨fun _ => hdata, fun _ => ⟨hpclath, hpclatu⟩, fun _ _ => henables⟩

end Sys2Proof.Machine
end

section
/-! LFSR with the register number 3: no word decodes to it, and the term stops on the word it would have. -/

namespace Sys2Proof.Machine

/-- The words of LFSR with the register number 3, which names no FSR, begin no instruction (30_encoding R120). -/
theorem firstWord_lfsr_three (k : BitVec 4) : firstWord (encLow8 0xEE#8 (0#2 ++ (3#2 ++ k))) = .reserved := by
  have hk := k.isLt
  have hword := encLow8_lfsr_toNat 3#2 k
  have hthree : (3#2 : BitVec 2).toNat = 3 := rfl
  rw [reservedWordSet]
  omega

/-- An LFSR that names no FSR stops with its own first word. -/
theorem exec_lfsr_three (s : State) (k : BitVec 12) :
    exec (.lfsr 3#2 k) s =
      .fault (.reservedInstruction s.pc (encLow8 0xEE#8 (0#2 ++ (3#2 ++ k.extractLsb' 8 4)))) := rfl

end Sys2Proof.Machine
end

section
namespace Sys2Proof.Machine

/-- Settles O50: the adder and the subtracter, which are exact, and the end of a literal instruction. -/
theorem literalArithmetic : Obligations.LiteralArithmetic := fun s k =>
  ⟨⟨_, _, isSum_add8 s.w k false, literalNext_eq _⟩, ⟨_, _, isDifference_sub8 k s.w false, literalNext_eq _⟩⟩

/-- Settles O51: each is the library's operation with its bits, then N and Z of the result. -/
theorem literalLogic : Obligations.LiteralLogic := by
  intro s k op i g hmem
  have hlogic : ∃ r, (∀ j, j < 8 → r.getLsbD j = g (s.w.getLsbD j) (k.getLsbD j)) ∧
      exec i s = literalNext { s with w := r, status := setNZ r s.status } ∧ encode i = [op ++ k] := by
    simp only [List.mem_cons, List.not_mem_nil, or_false, Prod.mk.injEq] at hmem
    rcases hmem with ⟨rfl, rfl, rfl⟩ | ⟨rfl, rfl, rfl⟩ | ⟨rfl, rfl, rfl⟩
    · exact ⟨s.w &&& k, fun _ _ => BitVec.getLsbD_and, rfl, rfl⟩
    · exact ⟨s.w ||| k, fun _ _ => BitVec.getLsbD_or, rfl, rfl⟩
    · exact ⟨s.w ^^^ k, fun _ _ => BitVec.getLsbD_xor, rfl, rfl⟩
  obtain ⟨r, hbits, hexec, hword⟩ := hlogic
  exact ⟨⟨r, _, hbits, isNZ_setNZ r s.status, hexec.trans (literalNext_eq _)⟩, hword⟩

/-- Settles O52: the loads end as their format does; of the four register numbers of LFSR the last names no FSR. -/
theorem literalMoves : Obligations.LiteralMoves := by
  intro s k a
  have hlow : (k.extractLsb' 0 4).toNat = k.toNat % 16 := by
    rw [extract_toNat]
    omega
  exact ⟨literalNext_eq _, ⟨_, hlow, literalNext_eq _⟩, rfl, rfl, rfl, ⟨_, firstWord_lfsr_three _, exec_lfsr_three s a⟩,
    rfl, rfl, fun _ => rfl⟩

end Sys2Proof.Machine
end

section
/-! The table pointer after an increment and a decrement, the holding registers after a write of one, and a table read by
the byte of program memory it meets. -/

namespace Sys2Proof.Machine

variable {p q : ProgAddr} {s : State}

theorem isAddr_succ : IsAddr q (p.toNat + 1) ↔ q = p + 1#21 := by
  unfold IsAddr
  rw [← BitVec.toNat_inj, BitVec.toNat_add, BitVec.toNat_ofNat]
  omega

theorem isAddr_pred : IsAddr q (p.toNat - 1) ↔ q = p - 1#21 := by
  unfold IsAddr
  rw [← BitVec.toNat_inj, BitVec.toNat_sub, BitVec.toNat_ofNat]
  omega

/-- A holding register after a write of one (10_state R42): both numbers are below 8, and each pair of them is one field
of the structure against another. -/
theorem Holding.get_set (h : Holding) (j k : BitVec 3) (v : Byte) :
    (h.set k v).get j = if j.toNat = k.toNat then v else h.get j := by
  have hj := j.isLt
  have hk := k.isLt
  unfold Holding.get Holding.set
  generalize j.toNat = m at hj ⊢
  generalize k.toNat = n at hk ⊢
  interval_cases n <;> interval_cases m <;> rfl

theorem tableRead_of_byte {v : Byte} (h : programByte s p = .ok v) (q : ProgAddr) :
    tableRead p q s = .next { s with
      pc := s.pc + 2#21, cycles := s.cycles + 2, tablat := v, tblptr := q } := tableRead_next.2 ⟨v, h, rfl⟩

theorem tableRead_of_error {e : Fault} (h : programByte s p = .error e) (q : ProgAddr) :
    tableRead p q s = .fault e := by
  simp only [tableRead, h]

end Sys2Proof.Machine
end

section
namespace Sys2Proof.Machine

/-- Settles O53: each form is the table read at its own two addresses, and the byte there is what program memory answers. -/
theorem tableReads : Obligations.TableReads := by
  intro s i p q word hform
  have hread : encode i = [word] ∧ exec i s = tableRead p q s := by
    simp only [isAddr_succ, isAddr_pred] at hform
    rcases hform with ⟨rfl, rfl, rfl, rfl⟩ | ⟨rfl, rfl, rfl, rfl⟩ | ⟨rfl, rfl, rfl, rfl⟩ | ⟨rfl, rfl, rfl, rfl⟩
    all_goals exact ⟨rfl, rfl⟩
  obtain ⟨hword, hexec⟩ := hread
  rw [hexec]
  exact ⟨hword, fun hbelow => tableRead_of_byte (programByte_ok.2 (.inl ⟨hbelow, rfl⟩)) q,
    fun habove hfault => tableRead_of_error (programByte_error.2 ⟨habove, hfault, rfl⟩) q,
    fun habove hzero => tableRead_of_byte (programByte_ok.2 (.inr ⟨habove, hzero, rfl⟩)) q⟩

/-- Settles O54: each form is the table write at its own two addresses, which sets the one register that the low three bits
of the first name. -/
theorem tableWrites : Obligations.TableWrites := by
  intro s i p q word hform
  have hwrite : encode i = [word] ∧ exec i s = tableWrite p q s := by
    simp only [isAddr_succ, isAddr_pred] at hform
    rcases hform with ⟨rfl, rfl, rfl, rfl⟩ | ⟨rfl, rfl, rfl, rfl⟩ | ⟨rfl, rfl, rfl, rfl⟩ | ⟨rfl, rfl, rfl, rfl⟩
    all_goals exact ⟨rfl, rfl⟩
  obtain ⟨hword, hexec⟩ := hwrite
  have hlow : (p.extractLsb' 0 3).toNat = p.toNat % 8 := (extract_toNat p 0 3).trans (by omega)
  refine ⟨hword, s.hold.set (p.extractLsb' 0 3) s.tablat, fun j => ?_, hexec.trans (tableWrite_eq p q s)⟩
  rw [Holding.get_set, hlow]

end Sys2Proof.Machine
end

section
/-! The environment's move at a boundary, kind by kind: what the counting of the watchdog changes, when a time-out is heard
and a request accepted, and which event each of them is. -/

namespace Sys2Proof.Machine

variable {s : State} {x : BoundaryInput} {rest : List BoundaryInput} {p : Priority}

/-! ## Counting -/

theorem countWdt_of_none (h : x.wdtCount = none) (s : State) : countWdt s x = s := by
  unfold countWdt
  rw [h]

/-- The counting sets the two counters, and only when the environment asks for it (60_exceptions R296). -/
theorem countWdt_eq (s : State) (x : BoundaryInput) : ∃ a b, countWdt s x = { s with wdt := a, wdtps := b } ∧
    (x.wdtCount = none → a = s.wdt ∧ b = s.wdtps) := by
  refine ⟨(countWdt s x).wdt, (countWdt s x).wdtps, ?_, fun h => by simp only [countWdt_of_none h, and_self]⟩
  unfold countWdt
  cases x.wdtCount with
  | none => rfl
  | some c => cases s.params.wdtEnabled <;> rfl

/-! ## Time-outs and requests -/

theorem timeOutHeard_eq_false_iff : timeOutHeard s x = false ↔ x.wdtTimeout = false ∨ s.params.wdtEnabled = false ∨
    (s.asleep = false ∧ s.cycles - s.wdtClearedAt < s.params.wdtPeriod) := by
  simp only [timeOutHeard, Bool.and_eq_false_iff, Bool.or_eq_false_iff, decide_eq_false_iff_not, Nat.not_le, or_assoc]

/-- Without priorities a low-priority request counts as one of high priority (60_exceptions R284). -/
theorem accepted_high_iff : accepted s x = some .high ↔ s.params.interrupts = true ∧ s.gieh = true ∧
    (x.irqHigh = true ∨ (x.irqLow = true ∧ s.params.ipen = false)) := by
  cases hhigh : x.irqHigh <;> simp [accepted, BoundaryInput.asksHigh, hhigh, and_assoc]

/-- A low-priority request is accepted only when it stands alone (60_exceptions R284, R286). -/
theorem accepted_low_iff : accepted s x = some .low ↔ s.params.interrupts = true ∧ s.gieh = true ∧
    x.irqHigh = false ∧ x.irqLow = true ∧ s.params.ipen = true ∧ s.giel = true := by
  cases hhigh : x.irqHigh <;> cases hipen : s.params.ipen <;>
    simp [accepted, BoundaryInput.asksHigh, BoundaryInput.asksLow, hhigh, hipen, and_assoc]

/-- Whatever its level, a request that is accepted was made, with GIEH = 1. -/
theorem requested_of_accepted (h : accepted s x = some p) :
    s.params.interrupts = true ∧ s.gieh = true ∧ (x.irqHigh = true ∨ x.irqLow = true) := by
  cases p with
  | high =>
    obtain ⟨hints, hgieh, hreq⟩ := accepted_high_iff.1 h
    exact ⟨hints, hgieh, hreq.imp_right And.left⟩
  | low =>
    obtain ⟨hints, hgieh, -, hlow, -, -⟩ := accepted_low_iff.1 h
    exact ⟨hints, hgieh, .inr hlow⟩

/-- With GIEH = 0 no request is accepted, with GIEL = 0 no low-priority one (60_exceptions R284). -/
theorem accepted_of_masked
    (h : s.gieh = false ∨ (x.irqHigh = false ∧ s.params.ipen = true ∧ s.giel = false)) : accepted s x = none := by
  refine Option.eq_none_iff_forall_ne_some.2 fun p hacc => ?_
  obtain hgieh | ⟨hhigh, hipen, hgiel⟩ := h
  · obtain ⟨-, henabled, -⟩ := requested_of_accepted hacc
    simp [henabled] at hgieh
  · cases p with
    | high => simp [accepted_high_iff, hhigh, hipen] at hacc
    | low => simp [accepted_low_iff, hgiel] at hacc

theorem accepted_of_no_request (h : s.params.interrupts = false ∨ (x.irqHigh = false ∧ x.irqLow = false)) :
    accepted s x = none := by
  refine Option.eq_none_iff_forall_ne_some.2 fun p hacc => ?_
  obtain ⟨hpart, -, hreq⟩ := requested_of_accepted hacc
  obtain hints | ⟨hhigh, hlow⟩ := h
  · simp [hpart] at hints
  · simp [hhigh, hlow] at hreq

/-! ## Events -/

/-- A sleeping core hears a time-out at once, and wakes (60_exceptions R297). -/
theorem boundaryEvent_of_timeOut_asleep (hreset : x.reset = none) (hasleep : s.asleep = true)
    (hheard : timeOutHeard s x = true) : boundaryEvent s x = some (.ok (watchdogWake s)) := by
  simp [boundaryEvent, hreset, hheard, hasleep]

/-- A request that is not accepted wakes a sleeping core (60_exceptions R297). -/
theorem boundaryEvent_of_request_asleep (hreset : x.reset = none) (hquiet : timeOutHeard s x = false)
    (hacc : accepted s x = none) (hasleep : s.asleep = true) (hints : s.params.interrupts = true)
    (hreq : x.irqHigh = true ∨ x.irqLow = true) : boundaryEvent s x = some (.ok (requestWake s)) := by
  simp [boundaryEvent, hreset, hquiet, hacc, hasleep, hints, hreq]

/-- With nothing to hear, an awake core is left to itself whatever asks for it, a sleeping one when nothing does. -/
theorem boundaryEvent_of_quiet (hreset : x.reset = none) (hquiet : timeOutHeard s x = false)
    (hacc : accepted s x = none)
    (hidle : s.asleep = false ∨ s.params.interrupts = false ∨ (x.irqHigh = false ∧ x.irqLow = false)) :
    boundaryEvent s x = none := by
  obtain hawake | hints | ⟨hhigh, hlow⟩ := hidle
  · simp [boundaryEvent, hreset, hquiet, hacc, hawake]
  · simp [boundaryEvent, hreset, hquiet, hacc, hints]
  · simp [boundaryEvent, hreset, hquiet, hacc, hhigh, hlow]

/-- Asleep the core does not move (60_exceptions R297). -/
theorem runCore_asleep (h : s.asleep = true) : runCore s = .next s := by
  unfold runCore
  rw [if_pos h]

/-! ## Interrupts -/

/-- With room on the return stack an interrupt entry completes. -/
theorem interruptEntry_of_room (h : s.stack.length < s.params.stackDepth) (p : Priority) :
    ∃ t, interruptEntry s p = .ok t := by
  cases hentry : interruptEntry s p with
  | ok t => exact ⟨t, rfl⟩
  | error e => exact absurd (interruptEntry_error.1 hentry).1 (Nat.not_le.2 h)

/-- With no reset, time-out or counting at the boundary, an accepted request makes the step its interrupt entry. -/
theorem step_of_accepted (hin : s.inputs = x :: rest) (hreset : x.reset = none) (hwdt : x.wdtTimeout = false)
    (hcount : x.wdtCount = none) (hacc : accepted s x = some p) :
    step s = outcome (interruptEntry { s with inputs := rest } p) :=
  step_of_event hin <| by
    rw [countWdt_of_none hcount]
    exact boundaryEvent_of_accepted hreset (timeOutHeard_eq_false_iff.2 (.inl hwdt)) hacc

theorem IntLevel.enter_eq_low_iff {l : IntLevel} : l.enter p = .low ↔ p = .low := by
  cases p with
  | high => by_cases h : l = .low <;> simp [IntLevel.enter, h]
  | low => simp [IntLevel.enter]

/-- The nesting after the return from an interrupt that was taken from the program, or with high priority from a
low-priority handler, is that before it (60_exceptions R292). -/
theorem IntLevel.enter_return {l : IntLevel} (h : l = .none ∨ (l = .low ∧ p = .high)) :
    (if l.enter p = .highOverLow then IntLevel.low else .none) = l := by
  obtain rfl | ⟨rfl, rfl⟩ := h
  · cases p <;> rfl
  · rfl

end Sys2Proof.Machine
end

section
namespace Sys2Proof.Machine

/-- Settles O9: the counting of the watchdog leaves the pc, program memory and the sleep state, so the core fetches what it
would have fetched. -/
theorem stepWithoutEvent : Obligations.StepWithoutEvent := by
  intro s x rest i n hin hawake hevent hfetch
  rw [step_of_no_event hin hevent]
  refine runCore_awake (n := n) (by simpa using hawake) ?_
  rw [countWdt_pc, fetchInstr_congr (s := s) (by simp) (by simp)]
  exact hfetch

/-- Settles O55: the request is accepted, its entry has room, and an entry that completes makes the state of
`interruptEntry_ok`. -/
theorem interruptTaken : Obligations.InterruptTaken := by
  intro s x rest hin hreset hwdt hcount hints hgieh hroom
  have hentry (p : Priority) (hacc : accepted s x = some p) :
      ∃ t, step s = .next t ∧ interruptEntry { s with inputs := rest } p = .ok t := by
    obtain ⟨t, ht⟩ := interruptEntry_of_room (s := { s with inputs := rest }) hroom p
    exact ⟨t, by rw [step_of_accepted hin hreset hwdt hcount hacc, ht]; rfl, ht⟩
  refine ⟨fun hreq => ?_, fun hhigh hlow hipen hgiel => ?_⟩
  · obtain ⟨t, hstep, ht⟩ := hentry .high (accepted_high_iff.2 ⟨hints, hgieh, hreq⟩)
    obtain ⟨-, rfl⟩ := interruptEntry_ok ht
    exact ⟨_, hstep, rfl, evenAddr_toNat s.params.vecHigh⟩
  · obtain ⟨t, hstep, ht⟩ := hentry .low (accepted_low_iff.2 ⟨hints, hgieh, hhigh, hlow, hipen, hgiel⟩)
    obtain ⟨-, rfl⟩ := interruptEntry_ok ht
    exact ⟨_, hstep, rfl, evenAddr_toNat s.params.vecLow⟩

/-- Settles O56: nothing is heard and nothing accepted, so the move makes no event, and it counts nothing. -/
theorem interruptMasked : Obligations.InterruptMasked := by
  intro s x rest i n hin hreset hcount hawake htimeout hmasked hfetch
  have hquiet : timeOutHeard { s with inputs := rest } x = false :=
    timeOutHeard_eq_false_iff.2 (htimeout.imp_right (Or.imp_right (And.intro hawake)))
  have hevent : boundaryEvent (countWdt { s with inputs := rest } x) x = none := by
    rw [countWdt_of_none hcount]
    exact boundaryEvent_of_quiet hreset hquiet (accepted_of_masked hmasked) (.inl hawake)
  rw [stepWithoutEvent s x rest i n hin hawake hevent hfetch, countWdt_of_none hcount]

/-- Settles O57: the entry leaves the even pc on top of the stack and the registers in the fast-save registers, where
RETFIE 1 finds them; it reads its level from the nesting that the entry has set. -/
theorem interruptTransparent : Obligations.InterruptTransparent := by
  intro s t u x rest hin hreset hwdt hcount hacc heven hlevel hstep hstack hws hstatuss hbsrs hnest
  obtain ⟨p, hp⟩ := Option.ne_none_iff_exists'.1 hacc
  rw [step_of_accepted hin hreset hwdt hcount hp] at hstep
  obtain ⟨-, rfl⟩ := interruptEntry_ok (outcome_next hstep)
  replace hnest : u.intLevel = s.intLevel.enter p := hnest
  refine ⟨_, exec_retfie_of_top hstack true, evenAddr_of_even heven, hws, hstatuss, hbsrs, rfl, ?_, ?_, ?_, rfl⟩
  · rw [hp, Option.some.injEq] at hlevel
    have hreturn := IntLevel.enter_return hlevel
    rwa [← hnest] at hreturn
  · intro hhigh
    obtain ⟨-, hgieh, -⟩ := requested_of_accepted hp
    have hnot : ¬ u.intLevel = .low := by
      rw [hnest, IntLevel.enter_eq_low_iff, Option.some.inj (hp.symm.trans hhigh)]
      decide
    exact ⟨(if_neg hnot).trans hgieh.symm, if_neg hnot⟩
  · intro hlow
    have hnestLow : u.intLevel = .low := by
      rw [hnest, IntLevel.enter_eq_low_iff, Option.some.inj (hp.symm.trans hlow)]
    obtain ⟨-, -, -, -, -, hgiel⟩ := accepted_low_iff.1 hlow
    exact ⟨(if_pos hnestLow).trans hgiel.symm, if_pos hnestLow⟩

/-- Settles O58: the step is the event of the boundary, or the sleeping core's own move, after a counting that sets the two
counters at most. -/
theorem sleepAndWakeUp : Obligations.SleepAndWakeUp := by
  intro s x rest hasleep
  refine ⟨fun hnil => (step_of_inputs_nil hnil).trans (runCore_asleep hasleep), fun hin hreset => ?_⟩
  obtain ⟨a, b, hcount, hkept⟩ := countWdt_eq { s with inputs := rest } x
  have hstep {r : Except Fault State} (h : boundaryEvent { s with inputs := rest, wdt := a, wdtps := b } x = some r) :
      step s = outcome r := step_of_event hin (hcount ▸ h)
  have hquiet (h : x.wdtTimeout = false ∨ s.params.wdtEnabled = false) :
      timeOutHeard { s with inputs := rest, wdt := a, wdtps := b } x = false :=
    timeOutHeard_eq_false_iff.2 (h.imp_right .inl)
  refine ⟨fun htimeout henabled => ?_, fun hno hints hmasked hreq => ?_, fun hno hidle => ?_⟩
  · have hheard := timeOutHeard_iff.2 ⟨htimeout, henabled, .inl hasleep⟩
    exact ⟨_, hstep (boundaryEvent_of_timeOut_asleep hreset hasleep hheard), hkept, rfl⟩
  · have hacc := accepted_of_masked hmasked
    exact ⟨_, hstep (boundaryEvent_of_request_asleep hreset (hquiet hno) hacc hasleep hints hreq), hkept, rfl⟩
  · have hevent := boundaryEvent_of_quiet hreset (hquiet hno) (accepted_of_no_request hidle) (.inr hidle)
    have hcore := step_of_no_event hin (hcount ▸ hevent)
    rw [hcount] at hcore
    exact ⟨_, hcore.trans (runCore_asleep hasleep), hkept, rfl⟩

end Sys2Proof.Machine
end

section
/-! Resets at a boundary: the column each kind takes, what the columns of the default `RESET_STATE` have in common, and the
event that a reset from outside or a time-out of an awake core makes. -/

namespace Sys2Proof.Machine

variable {s t : State} {x : BoundaryInput} {rest : List BoundaryInput} {k : ResetKind} {row : ResetRow}

/-! ## Columns -/

theorem resetRow_mclr_asleep (h : s.asleep = true) : resetRow .mclr s = s.params.resetState.mclrAsleep := if_pos h

theorem resetRow_mclr_awake (h : s.asleep = false) : resetRow .mclr s = s.params.resetState.mclr := by
  simp [resetRow, h]

/-- The entries in which all columns of the default table agree, but for the flags and the holding registers: BSR, the upper
part of each FSR, the table registers, the latches, the interrupt enables and the watchdog counters are cleared
(70_reset R322). -/
def ClearsControl (row : ResetRow) : Prop :=
  row = { row with
    bsr := .value 0#4, fsr0h := .value 0#4, fsr1h := .value 0#4, fsr2h := .value 0#4, tblptr := .value 0#21
    tablat := .value 0#8, pclath := .value 0#8, pclatu := .value 0#5, gieh := .value false, giel := .value false
    wdt := .value 0, wdtps := .value 0 }

/-- The entries that every column of the default table but that of power-on leaves unchanged: W, the lower part of each
FSR, the product, the fast-save registers and data memory (70_reset R322). -/
def KeepsData (row : ResetRow) : Prop :=
  row = { row with
    w := .unchanged, fsr0l := .unchanged, fsr1l := .unchanged, fsr2l := .unchanged, prodh := .unchanged
    prodl := .unchanged, ws := .unchanged, statuss := .unchanged, bsrs := .unchanged, data := .unchanged }

theorem resetRow_default_clearsControl (h : s.params.resetState = defaultResetState) (k : ResetKind) :
    ClearsControl (resetRow k s) := by
  unfold resetRow
  rw [h]
  cases k with
  | powerOn | software | wdt => rfl
  | mclr => cases s.asleep <;> rfl

theorem resetRow_default_keepsData (h : s.params.resetState = defaultResetState) (hk : k ≠ .powerOn) :
    KeepsData (resetRow k s) := by
  unfold resetRow
  rw [h]
  cases k with
  | powerOn => exact absurd rfl hk
  | software | wdt => rfl
  | mclr => cases s.asleep <;> rfl

/-! ## What a column does -/

/-- The column does not speak of the environment's moves. -/
theorem ResetBy.of_inputs (h : ResetBy row { s with inputs := rest } t) : ResetBy row s t := { h with }

/-- A 12-bit register is its upper four bits above its lower byte. -/
theorem fsr_toNat (v : BitVec 12) : v.toNat = 256 * (v.extractLsb' 8 4).toNat + (v.extractLsb' 0 8).toNat := by
  have hv := v.isLt
  rw [extract_toNat, extract_toNat]
  omega

theorem fsr_toNat_of_high_zero {v : BitVec 12} (h : v.extractLsb' 8 4 = 0#4) :
    v.toNat = (v.extractLsb' 0 8).toNat := by
  rw [fsr_toNat v, h]
  exact Nat.zero_add _

theorem fsr_lt_of_high_zero {v : BitVec 12} (h : v.extractLsb' 8 4 = 0#4) : v.toNat < 256 := by
  rw [fsr_toNat_of_high_zero h]
  exact BitVec.isLt _

theorem fsr_toNat_of_low_kept {v old : BitVec 12} (hhigh : v.extractLsb' 8 4 = 0#4)
    (hlow : v.extractLsb' 0 8 = old.extractLsb' 0 8) : v.toNat = old.toNat % 256 := by
  rw [fsr_toNat_of_high_zero hhigh, hlow, extract_toNat]
  omega

theorem ResetBy.fsr_high_zero (h : ResetBy row s t) (hrow : ClearsControl row) :
    t.fsr0.extractLsb' 8 4 = 0#4 ∧ t.fsr1.extractLsb' 8 4 = 0#4 ∧ t.fsr2.extractLsb' 8 4 = 0#4 := by
  rw [hrow] at h
  exact ⟨h.fsr0h, h.fsr1h, h.fsr2h⟩

theorem ResetBy.control_cleared (h : ResetBy row s t) (hrow : ClearsControl row) :
    t.gieh = false ∧ t.giel = false ∧ t.bsr = 0#4 ∧ t.tblptr = 0#21 ∧ t.tablat = 0#8 ∧ t.pclath = 0#8 ∧
      t.pclatu = 0#5 ∧ t.wdt = 0 ∧ t.wdtps = 0 ∧ t.fsr0.toNat < 256 ∧ t.fsr1.toNat < 256 ∧ t.fsr2.toNat < 256 := by
  obtain ⟨hhigh0, hhigh1, hhigh2⟩ := h.fsr_high_zero hrow
  rw [hrow] at h
  exact ⟨h.gieh, h.giel, h.bsr, h.tblptr, h.tablat, h.pclath, h.pclatu, h.wdt, h.wdtps, fsr_lt_of_high_zero hhigh0,
    fsr_lt_of_high_zero hhigh1, fsr_lt_of_high_zero hhigh2⟩

/-- Of a column that clears the upper parts of the FSRs and keeps the data, the FSRs keep their lower bytes. -/
theorem ResetBy.data_kept (h : ResetBy row s t) (hclears : ClearsControl row) (hkeeps : KeepsData row) :
    t.w = s.w ∧ t.data = s.data ∧ t.prodh = s.prodh ∧ t.prodl = s.prodl ∧ t.ws = s.ws ∧ t.statuss = s.statuss ∧
      t.bsrs = s.bsrs ∧ t.fsr0.toNat = s.fsr0.toNat % 256 ∧ t.fsr1.toNat = s.fsr1.toNat % 256 ∧
      t.fsr2.toNat = s.fsr2.toNat % 256 := by
  obtain ⟨hhigh0, hhigh1, hhigh2⟩ := h.fsr_high_zero hclears
  rw [hkeeps] at h
  exact ⟨h.w, h.data_unchanged rfl, h.prodh, h.prodl, h.ws, h.statuss, h.bsrs, fsr_toNat_of_low_kept hhigh0 h.fsr0l,
    fsr_toNat_of_low_kept hhigh1 h.fsr1l, fsr_toNat_of_low_kept hhigh2 h.fsr2l⟩

/-! ## The event -/

/-- The move asks for a reset of kind `k`: one from outside, whatever else it asks for, or else a time-out of an awake core
after `WDT_PERIOD` (60_exceptions R296; 70_reset R320). -/
def AsksReset (s : State) (x : BoundaryInput) (k : ResetKind) : Prop :=
  (k = .powerOn ∧ x.reset = some .powerOn) ∨ (k = .mclr ∧ x.reset = some .mclr) ∨
    (k = .wdt ∧ x.reset = none ∧ x.wdtTimeout = true ∧ s.params.wdtEnabled = true ∧ s.asleep = false ∧
      s.params.wdtPeriod ≤ s.cycles - s.wdtClearedAt)

theorem boundaryEvent_of_asksReset (h : AsksReset s x k) : boundaryEvent s x = some (.ok (doReset k s).freeTick) := by
  obtain ⟨rfl, hreset⟩ | ⟨rfl, hreset⟩ | ⟨rfl, hreset, htimeout, henabled, hawake, hperiod⟩ := h
  · simp [boundaryEvent, hreset, ExternalReset.kind]
  · simp [boundaryEvent, hreset, ExternalReset.kind]
  · have hheard : timeOutHeard s x = true := timeOutHeard_iff.2 ⟨htimeout, henabled, .inr hperiod⟩
    simp [boundaryEvent, hreset, hheard, hawake]

/-- The counting does not look at the moves still to come. -/
theorem countWdt_with_inputs (s : State) (x : BoundaryInput) (rest : List BoundaryInput) :
    countWdt { s with inputs := rest } x = { countWdt s x with inputs := rest } := by
  unfold countWdt
  cases x.wdtCount with
  | none => rfl
  | some c => cases s.params.wdtEnabled <;> rfl

/-- The counting leaves everything that a request for a reset depends on. -/
theorem asksReset_countWdt (h : AsksReset s x k) : AsksReset (countWdt s x) x k := by
  simpa only [AsksReset, countWdt_params, countWdt_asleep, countWdt_cycles, countWdt_wdtClearedAt] using h

/-- The step of a move that asks for a reset is that reset, after the counting. -/
theorem step_of_asksReset (hin : s.inputs = x :: rest) (h : AsksReset s x k) :
    step s = .next (doReset k { countWdt s x with inputs := rest }).freeTick := by
  have hevent : boundaryEvent (countWdt { s with inputs := rest } x) x =
      some (.ok (doReset k { countWdt s x with inputs := rest }).freeTick) := by
    rw [countWdt_with_inputs]
    exact boundaryEvent_of_asksReset (s := { countWdt s x with inputs := rest }) (asksReset_countWdt h)
  exact step_of_event hin hevent

/-- That reset takes the column of its kind, which the counting does not change. -/
theorem resetBy_of_counted (k : ResetKind) (s : State) (x : BoundaryInput) (rest : List BoundaryInput) :
    ResetBy (resetRow k s) (countWdt s x) (doReset k { countWdt s x with inputs := rest }).freeTick := by
  have hrow : resetRow k { countWdt s x with inputs := rest } = resetRow k s := by
    simp only [resetRow, countWdt_params, countWdt_asleep]
  rw [← hrow]
  exact (resetBy_doReset k _ _ _).of_inputs

end Sys2Proof.Machine
end

section
namespace Sys2Proof.Machine

/-- Settles O59: the step is the reset after the counting; what R321 fixes is the reset's own, the column of the kind gives
every other element, and of the default columns all clear the control registers and all but that of power-on keep the
data. -/
theorem externalResets : Obligations.ExternalResets := by
  intro s x rest k hin hasks
  refine ⟨_, step_of_asksReset hin hasks, rfl, countWdt_prog s x, countWdt_params s x, ?_, rfl, rfl, rfl, ?_⟩
  · exact countWdt_params s x ▸ evenAddr_toNat (countWdt s x).params.resetVector
  have hby := resetBy_of_counted k s x rest
  generalize (doReset k { countWdt s x with inputs := rest }).freeTick = t at hby ⊢
  have hpowerOn (hk : k = .powerOn) : ResetBy s.params.resetState.powerOn (countWdt s x) t := by
    subst hk
    exact hby
  have hmclrAsleep (hk : k = .mclr) (hasleep : s.asleep = true) :
      ResetBy s.params.resetState.mclrAsleep (countWdt s x) t := by
    rwa [hk, resetRow_mclr_asleep hasleep] at hby
  have hmclr (hk : k = .mclr) (hawake : s.asleep = false) : ResetBy s.params.resetState.mclr (countWdt s x) t := by
    rwa [hk, resetRow_mclr_awake hawake] at hby
  have hwdt (hk : k = .wdt) : ResetBy s.params.resetState.wdt (countWdt s x) t := by
    subst hk
    exact hby
  refine ⟨hpowerOn, hmclrAsleep, hmclr, hwdt, fun hdefault => ?_⟩
  have hclears := resetRow_default_clearsControl hdefault k
  obtain ⟨hgieh, hgiel, hbsr, htblptr, htablat, hpclath, hpclatu, hwdt0, hwdtps0, hfsr0, hfsr1, hfsr2⟩ :=
    hby.control_cleared hclears
  obtain ⟨a, b, hcount, -⟩ := countWdt_eq s x
  rw [hdefault] at hpowerOn hmclrAsleep hmclr hwdt
  rw [hcount] at hby hmclr
  exact ⟨hgieh, hgiel, hbsr, htblptr, htablat, hpclath, hpclatu, hwdt0, hwdtps0, hfsr0, hfsr1, hfsr2,
    fun hk => ⟨(hpowerOn hk).toBit, (hpowerOn hk).pdBit⟩,
    fun hk hasleep => ⟨(hmclrAsleep hk hasleep).toBit, (hmclrAsleep hk hasleep).pdBit⟩,
    fun hk hawake => ⟨(hmclr hk hawake).toBit, (hmclr hk hawake).pdBit⟩,
    fun hk => ⟨(hwdt hk).toBit, (hwdt hk).pdBit⟩,
    fun hk => hby.data_kept hclears (resetRow_default_keepsData hdefault hk)⟩

/-- Settles O60: the default `RESET_STATE` gives each of these registers its value, and the memories and the moves of the
initial state are empty. -/
theorem resetState : Obligations.ResetState :=
  ⟨rfl, rfl, rfl, rfl, rfl, rfl, rfl, rfl, rfl, rfl, rfl, rfl, rfl, rfl, rfl, rfl⟩

end Sys2Proof.Machine
end
